-- ==== Sys2Proof/Word.lean ====
section
/-! DEFINITION. The word types of the block: 32-bit register values and 8-bit transport bytes (00_scope.md R6, R8 and
section 5). Every quantity is unsigned. -/

namespace Sys2Proof

/-- A `u32`: one register cell, or the value of one bus access (R11, R61). -/
abbrev Word := BitVec 32

/-- One byte of the serial stream (R8). -/
abbrev Byte := BitVec 8

/-- `max_u32` (00_scope.md section 5). -/
def maxU32 : Word := 0xFFFFFFFF

end Sys2Proof
end

