-- ==== Sys2Proof/Config.lean ====
section
/-! DEFINITION. The implementation parameters of 00_scope.md R6. A machine is built with one `Config` and one base clock
per Timer unit; no step changes either, and every claim is made for all of them. The values `Config.sample` and
`sampleBaseClocks` serve only `State.reset` (log entry 3): no claim may rest on them. -/

namespace Sys2Proof

/-- The parameters that the whole machine shares (R6, R35). The base clock is per Timer unit and stands with the unit. -/
structure Config where
  /-- `VTU`: quanta of virtual time in the unit over which a rate is counted. -/
  vtu : Nat
  /-- `TRANSPORT_ATTACHED`: whether the UART has a byte-stream backend. -/
  transportAttached : Bool
  /-- `BREAK_BYTE`: the sentinel byte a break stores (R158). -/
  breakByte : Byte
  deriving DecidableEq, Repr

/-- R6's constraint on `VTU`. -/
def Config.wf (c : Config) : Bool := decide (1 ≤ c.vtu ∧ c.vtu < 2 ^ 32)

/-- R6's constraint on a `BASE_CLOCK`; R176: a unit with none or zero is never constructed. -/
def baseClockWf (clock : Nat) : Bool := decide (1 ≤ clock ∧ clock < 2 ^ 32)

/-- R6: at least one Timer unit, each with a legal base clock. -/
def baseClocksWf (clocks : List Nat) : Bool := !clocks.isEmpty && clocks.all baseClockWf

/-- DESIGN CHOICE (unsafe to rest a claim on, log entry 3): the parameters of `State.reset`, the values of the spec's examples
(40_timer_reads.md: `VTU = 1000000000`; R6: `BREAK_BYTE = 0x00`; 95_test_vectors.md P4: a transport attached). -/
def Config.sample : Config := { vtu := 1000000000, transportAttached := true, breakByte := 0x00 }

/-- DESIGN CHOICE (unsafe to rest a claim on, log entry 3): one Timer unit of 1 MHz, the spec's examples' `BASE_CLOCK`. -/
def sampleBaseClocks : List Nat := [1000000]

end Sys2Proof
end

