-- ==== Sys2Proof/Syntax.lean ====
section
/-! DEFINITION. The closed set of 43 operations of 30_encoding.md R60, one constructor per row of spec/opcode_table.json.
`t` is the number of the Timer unit addressed (R34), `offset` the byte offset of an access that matches no register (R46, a
natural number by R61), `value` the data of a write, `byte` the byte delivered, `time` the new virtual time (R62). -/

namespace Sys2Proof

/-- One operation of the block (R2, R60). -/
inductive Instr where
  /-- `TRD.CTRL` (R81). -/
  | trdCtrl (t : Nat)
  /-- `TRD.CMD` (R86). -/
  | trdCmd (t : Nat)
  /-- `TRD.IEN` (R82). -/
  | trdIen (t : Nat)
  /-- `TRD.IF` (R83). -/
  | trdIf (t : Nat)
  /-- `TRD.IFS` (R86). -/
  | trdIfs (t : Nat)
  /-- `TRD.IFC` (R86). -/
  | trdIfc (t : Nat)
  /-- `TRD.TOP` (R85). -/
  | trdTop (t : Nat)
  /-- `TRD.CNT` (R84). -/
  | trdCnt (t : Nat)
  /-- `TRD.UNK` (R87). -/
  | trdUnk (t offset : Nat)
  /-- `TWR.CTRL` (R91). -/
  | twrCtrl (t : Nat) (value : Word)
  /-- `TWR.CMD` (R93). -/
  | twrCmd (t : Nat) (value : Word)
  /-- `TWR.IEN` (R92). -/
  | twrIen (t : Nat) (value : Word)
  /-- `TWR.IF` (R96). -/
  | twrIf (t : Nat) (value : Word)
  /-- `TWR.IFS` (R95). -/
  | twrIfs (t : Nat) (value : Word)
  /-- `TWR.IFC` (R99). -/
  | twrIfc (t : Nat) (value : Word)
  /-- `TWR.TOP` (R97). -/
  | twrTop (t : Nat) (value : Word)
  /-- `TWR.CNT` (R98). -/
  | twrCnt (t : Nat) (value : Word)
  /-- `TWR.UNK` (R101). -/
  | twrUnk (t offset : Nat) (value : Word)
  /-- `TEV.FIRE` (R114). -/
  | tevFire (t : Nat)
  /-- `TEV.RESET` (R200). -/
  | tevReset (t : Nat)
  /-- `URD.CMD` (R131). -/
  | urdCmd
  /-- `URD.STATUS` (R127). -/
  | urdStatus
  /-- `URD.RXDATAX` (R126). -/
  | urdRxdatax
  /-- `URD.TXDATA` (R131). -/
  | urdTxdata
  /-- `URD.IF` (R128). -/
  | urdIf
  /-- `URD.IFS` (R131). -/
  | urdIfs
  /-- `URD.IFC` (R131). -/
  | urdIfc
  /-- `URD.IEN` (R129). -/
  | urdIen
  /-- `URD.UNK` (R130). -/
  | urdUnk (offset : Nat)
  /-- `UWR.CMD` (R146). -/
  | uwrCmd (value : Word)
  /-- `UWR.STATUS` (R146). -/
  | uwrStatus (value : Word)
  /-- `UWR.RXDATAX` (R146). -/
  | uwrRxdatax (value : Word)
  /-- `UWR.TXDATA` (R144). -/
  | uwrTxdata (value : Word)
  /-- `UWR.IF` (R145). -/
  | uwrIf (value : Word)
  /-- `UWR.IFS` (R142). -/
  | uwrIfs (value : Word)
  /-- `UWR.IFC` (R143). -/
  | uwrIfc (value : Word)
  /-- `UWR.IEN` (R141). -/
  | uwrIen (value : Word)
  /-- `UWR.UNK` (R147). -/
  | uwrUnk (offset : Nat) (value : Word)
  /-- `UEV.CANRX` (R156). -/
  | uevCanrx
  /-- `UEV.RX` (R157). -/
  | uevRx (byte : Byte)
  /-- `UEV.BREAK` (R158). -/
  | uevBreak
  /-- `UEV.RESET` (R201). -/
  | uevReset
  /-- `ENV.ADVANCE` (R116). -/
  | envAdvance (time : Nat)
  deriving DecidableEq, Repr

end Sys2Proof
end

