-- ==== Sys2Proof/WellFormed.lean ====
section
/-! DEFINITION. What makes an operation well formed: an `UNK` operation names an offset that no register of that peripheral
has (R46, R61, R76), a Timer operation names a unit the machine has (R6), and, for the model's own bit record only, the
operands fit the record's fields (log entry 4). -/

namespace Sys2Proof

/-- Who an operation acts on: one Timer unit, the UART, or the virtual clock (R10, R34). -/
inductive Target where
  | timer (t : Nat)
  | uart
  | clock
  deriving DecidableEq, Repr

/-- The offsets of the Timer's registers (R13, R41, R63). -/
def timerOffsets : List Nat := [0x00, 0x04, 0x0C, 0x10, 0x14, 0x18, 0x1C, 0x24]

/-- The offsets of the UART's registers (R24, R41, R64). -/
def uartOffsets : List Nat := [0x0C, 0x10, 0x18, 0x34, 0x40, 0x44, 0x48, 0x4C]

/-- The peripheral an operation belongs to, from R60's selector column. -/
def Instr.target : Instr → Target
  | .trdCtrl t | .trdCmd t | .trdIen t | .trdIf t | .trdIfs t | .trdIfc t | .trdTop t | .trdCnt t | .trdUnk t _
  | .twrCtrl t _ | .twrCmd t _ | .twrIen t _ | .twrIf t _ | .twrIfs t _ | .twrIfc t _ | .twrTop t _ | .twrCnt t _
  | .twrUnk t _ _ | .tevFire t | .tevReset t => .timer t
  | .urdCmd | .urdStatus | .urdRxdatax | .urdTxdata | .urdIf | .urdIfs | .urdIfc | .urdIen | .urdUnk _ | .uwrCmd _
  | .uwrStatus _ | .uwrRxdatax _ | .uwrTxdata _ | .uwrIf _ | .uwrIfs _ | .uwrIfc _ | .uwrIen _ | .uwrUnk _ _
  | .uevCanrx | .uevRx _ | .uevBreak | .uevReset => .uart
  | .envAdvance _ => .clock

/-- R46, R76: an `UNK` operation is selected only by an offset that no exact row of its peripheral has. -/
def Instr.offsetOk : Instr → Bool
  | .trdUnk _ offset | .twrUnk _ offset _ => !timerOffsets.contains offset
  | .urdUnk offset | .uwrUnk offset _ => !uartOffsets.contains offset
  | .trdCtrl _ | .trdCmd _ | .trdIen _ | .trdIf _ | .trdIfs _ | .trdIfc _ | .trdTop _ | .trdCnt _ | .twrCtrl _ _
  | .twrCmd _ _ | .twrIen _ _ | .twrIf _ _ | .twrIfs _ _ | .twrIfc _ _ | .twrTop _ _ | .twrCnt _ _ | .tevFire _
  | .tevReset _ | .urdCmd | .urdStatus | .urdRxdatax | .urdTxdata | .urdIf | .urdIfs | .urdIfc | .urdIen | .uwrCmd _
  | .uwrStatus _ | .uwrRxdatax _ | .uwrTxdata _ | .uwrIf _ | .uwrIfs _ | .uwrIfc _ | .uwrIen _ | .uevCanrx | .uevRx _
  | .uevBreak | .uevReset | .envAdvance _ => true

/-- R6, R34: a Timer operation addresses one of the machine's `nTimers` units. -/
def Instr.unitOk (nTimers : Nat) (i : Instr) : Bool :=
  match i.target with
  | .timer t => decide (t < nTimers)
  | .uart | .clock => true

/-- Log entry 4: the operands fit the fields of the model's bit record (the spec gives a transaction no bits, R62). -/
def Instr.recordOk : Instr → Bool
  | .trdUnk t offset | .twrUnk t offset _ => decide (t < 2 ^ 24 ∧ offset < 2 ^ 32)
  | .urdUnk offset | .uwrUnk offset _ => decide (offset < 2 ^ 32)
  | .trdCtrl t | .trdCmd t | .trdIen t | .trdIf t | .trdIfs t | .trdIfc t | .trdTop t | .trdCnt t | .twrCtrl t _
  | .twrCmd t _ | .twrIen t _ | .twrIf t _ | .twrIfs t _ | .twrIfc t _ | .twrTop t _ | .twrCnt t _ | .tevFire t
  | .tevReset t => decide (t < 2 ^ 24)
  | .urdCmd | .urdStatus | .urdRxdatax | .urdTxdata | .urdIf | .urdIfs | .urdIfc | .urdIen | .uwrCmd _ | .uwrStatus _
  | .uwrRxdatax _ | .uwrTxdata _ | .uwrIf _ | .uwrIfs _ | .uwrIfc _ | .uwrIen _ | .uevCanrx | .uevRx _ | .uevBreak
  | .uevReset | .envAdvance _ => true

/-- A well-formed operation of a machine with `nTimers` Timer units. -/
def Instr.wf (nTimers : Nat) (i : Instr) : Bool := i.offsetOk && i.unitOk nTimers

end Sys2Proof
end

