-- ==== Sys2Proof/Decode.lean ====
section
/-! DEFINITION. Decoding. The block decodes no instruction words (30_encoding.md): it selects an operation from a request,
which is a bus transaction (peripheral, direction, byte offset, and a value for a write; R61) or an event with its arguments
(R62). `decode` is that selection, total; `encode` is its inverse, written from the register maps R63 and R64.

The second half is the MODEL's own bit record of a request (DESIGN CHOICE, safe, log entry 4): the spec gives an event no bits
and a transaction no packing, and the record exists only so that a request can be written as one number. -/

namespace Sys2Proof

/-- What an outside agent asks of the block (R10, R61, R62). -/
inductive Request where
  /-- The CPU reads a Timer unit's window. -/
  | timerRead (t offset : Nat)
  /-- The CPU writes a Timer unit's window. -/
  | timerWrite (t offset : Nat) (value : Word)
  /-- The CPU reads the UART's window. -/
  | uartRead (offset : Nat)
  /-- The CPU writes the UART's window. -/
  | uartWrite (offset : Nat) (value : Word)
  /-- The scheduler invokes a Timer unit's deadline callback. -/
  | timerFire (t : Nat)
  /-- The SoC composer resets a Timer unit. -/
  | timerReset (t : Nat)
  /-- The transport asks whether a byte can be received. -/
  | uartCanReceive
  /-- The transport delivers a byte. -/
  | uartReceive (byte : Byte)
  /-- The transport reports a line break. -/
  | uartBreak
  /-- The SoC composer resets the UART. -/
  | uartReset
  /-- The host loop moves virtual time to `time`. -/
  | advance (time : Nat)
  deriving DecidableEq, Repr

/-- R63, the read column. -/
def decodeTimerRead (t offset : Nat) : Instr :=
  if offset = 0x00 then .trdCtrl t
  else if offset = 0x04 then .trdCmd t
  else if offset = 0x0C then .trdIen t
  else if offset = 0x10 then .trdIf t
  else if offset = 0x14 then .trdIfs t
  else if offset = 0x18 then .trdIfc t
  else if offset = 0x1C then .trdTop t
  else if offset = 0x24 then .trdCnt t
  else .trdUnk t offset

/-- R63, the write column. -/
def decodeTimerWrite (t offset : Nat) (value : Word) : Instr :=
  if offset = 0x00 then .twrCtrl t value
  else if offset = 0x04 then .twrCmd t value
  else if offset = 0x0C then .twrIen t value
  else if offset = 0x10 then .twrIf t value
  else if offset = 0x14 then .twrIfs t value
  else if offset = 0x18 then .twrIfc t value
  else if offset = 0x1C then .twrTop t value
  else if offset = 0x24 then .twrCnt t value
  else .twrUnk t offset value

/-- R64, the read column. -/
def decodeUartRead (offset : Nat) : Instr :=
  if offset = 0x0C then .urdCmd
  else if offset = 0x10 then .urdStatus
  else if offset = 0x18 then .urdRxdatax
  else if offset = 0x34 then .urdTxdata
  else if offset = 0x40 then .urdIf
  else if offset = 0x44 then .urdIfs
  else if offset = 0x48 then .urdIfc
  else if offset = 0x4C then .urdIen
  else .urdUnk offset

/-- R64, the write column. -/
def decodeUartWrite (offset : Nat) (value : Word) : Instr :=
  if offset = 0x0C then .uwrCmd value
  else if offset = 0x10 then .uwrStatus value
  else if offset = 0x18 then .uwrRxdatax value
  else if offset = 0x34 then .uwrTxdata value
  else if offset = 0x40 then .uwrIf value
  else if offset = 0x44 then .uwrIfs value
  else if offset = 0x48 then .uwrIfc value
  else if offset = 0x4C then .uwrIen value
  else .uwrUnk offset value

/-- R61: "selected by `dir` and by exact equality of `offset` with one of the defined offsets; every other `offset` selects the
`UNK` operation of that direction"; events are selected by name (R76). -/
def decode : Request → Instr
  | .timerRead t offset => decodeTimerRead t offset
  | .timerWrite t offset value => decodeTimerWrite t offset value
  | .uartRead offset => decodeUartRead offset
  | .uartWrite offset value => decodeUartWrite offset value
  | .timerFire t => .tevFire t
  | .timerReset t => .tevReset t
  | .uartCanReceive => .uevCanrx
  | .uartReceive byte => .uevRx byte
  | .uartBreak => .uevBreak
  | .uartReset => .uevReset
  | .advance time => .envAdvance time

/-- The request that selects an operation: the offsets of R63 and R64, the events of R62. -/
def encode : Instr → Request
  | .trdCtrl t => .timerRead t 0x00
  | .trdCmd t => .timerRead t 0x04
  | .trdIen t => .timerRead t 0x0C
  | .trdIf t => .timerRead t 0x10
  | .trdIfs t => .timerRead t 0x14
  | .trdIfc t => .timerRead t 0x18
  | .trdTop t => .timerRead t 0x1C
  | .trdCnt t => .timerRead t 0x24
  | .trdUnk t offset => .timerRead t offset
  | .twrCtrl t value => .timerWrite t 0x00 value
  | .twrCmd t value => .timerWrite t 0x04 value
  | .twrIen t value => .timerWrite t 0x0C value
  | .twrIf t value => .timerWrite t 0x10 value
  | .twrIfs t value => .timerWrite t 0x14 value
  | .twrIfc t value => .timerWrite t 0x18 value
  | .twrTop t value => .timerWrite t 0x1C value
  | .twrCnt t value => .timerWrite t 0x24 value
  | .twrUnk t offset value => .timerWrite t offset value
  | .urdCmd => .uartRead 0x0C
  | .urdStatus => .uartRead 0x10
  | .urdRxdatax => .uartRead 0x18
  | .urdTxdata => .uartRead 0x34
  | .urdIf => .uartRead 0x40
  | .urdIfs => .uartRead 0x44
  | .urdIfc => .uartRead 0x48
  | .urdIen => .uartRead 0x4C
  | .urdUnk offset => .uartRead offset
  | .uwrCmd value => .uartWrite 0x0C value
  | .uwrStatus value => .uartWrite 0x10 value
  | .uwrRxdatax value => .uartWrite 0x18 value
  | .uwrTxdata value => .uartWrite 0x34 value
  | .uwrIf value => .uartWrite 0x40 value
  | .uwrIfs value => .uartWrite 0x44 value
  | .uwrIfc value => .uartWrite 0x48 value
  | .uwrIen value => .uartWrite 0x4C value
  | .uwrUnk offset value => .uartWrite offset value
  | .tevFire t => .timerFire t
  | .tevReset t => .timerReset t
  | .uevCanrx => .uartCanReceive
  | .uevRx byte => .uartReceive byte
  | .uevBreak => .uartBreak
  | .uevReset => .uartReset
  | .envAdvance time => .advance time

/-- The unit or peripheral a request is addressed to (R10, R61). -/
def Request.target : Request → Target
  | .timerRead t _ | .timerWrite t _ _ | .timerFire t | .timerReset t => .timer t
  | .uartRead _ | .uartWrite _ _ | .uartCanReceive | .uartReceive _ | .uartBreak | .uartReset => .uart
  | .advance _ => .clock

/-! The model's bit record (log entry 4): bits 31..0 the byte offset (the width of the opcode table's match and mask, R76), bits
39..32 the selector, bits 63..40 the Timer unit, bits 64 and up the operand (a value, a byte, or a time, which has no bound). -/

/-- Why a record is no request. -/
inductive RecordError where
  /-- The selector is none of 0 to 10. -/
  | reservedSelector
  /-- A field the selector does not use is not zero. -/
  | reservedField
  /-- The operand is wider than the value or byte the selector takes. -/
  | operandTooWide
  deriving DecidableEq, Repr

/-- Bits 31..0 of a record: the byte offset. -/
def recordOffset (w : Nat) : Nat := w % 2 ^ 32

/-- Bits 39..32 of a record: who asks for what. -/
def recordSelector (w : Nat) : Nat := w / 2 ^ 32 % 2 ^ 8

/-- Bits 63..40 of a record: the Timer unit. -/
def recordUnit (w : Nat) : Nat := w / 2 ^ 40 % 2 ^ 24

/-- Bits 64 and up of a record: the operand. -/
def recordOperand (w : Nat) : Nat := w / 2 ^ 64

/-- A record with the four fields given. -/
def packRecord (selector unit offset operand : Nat) : Nat :=
  offset + 2 ^ 32 * selector + 2 ^ 40 * unit + 2 ^ 64 * operand

/-- `r` if the condition holds, and the named rejection otherwise. -/
def requestIf (ok : Bool) (e : RecordError) (r : Request) : Except RecordError Request :=
  if ok then .ok r else .error e

/-- The request of a write or a byte: the fields it does not use are zero and the operand fits `width` bits. -/
def operandRequest (unused width operand : Nat) (r : Request) : Except RecordError Request :=
  if unused = 0 then requestIf (decide (operand < 2 ^ width)) .operandTooWide r else .error .reservedField

/-- The request four record fields stand for; total, rejecting by name. -/
def requestOfFields (selector unit offset operand : Nat) : Except RecordError Request :=
  if selector = 0 then requestIf (operand == 0) .reservedField (.timerRead unit offset)
  else if selector = 1 then operandRequest 0 32 operand (.timerWrite unit offset (BitVec.ofNat 32 operand))
  else if selector = 2 then requestIf (unit + operand == 0) .reservedField (.uartRead offset)
  else if selector = 3 then operandRequest unit 32 operand (.uartWrite offset (BitVec.ofNat 32 operand))
  else if selector = 4 then requestIf (offset + operand == 0) .reservedField (.timerFire unit)
  else if selector = 5 then requestIf (offset + operand == 0) .reservedField (.timerReset unit)
  else if selector = 6 then requestIf (offset + unit + operand == 0) .reservedField .uartCanReceive
  else if selector = 7 then operandRequest (offset + unit) 8 operand (.uartReceive (BitVec.ofNat 8 operand))
  else if selector = 8 then requestIf (offset + unit + operand == 0) .reservedField .uartBreak
  else if selector = 9 then requestIf (offset + unit + operand == 0) .reservedField .uartReset
  else if selector = 10 then requestIf (offset + unit == 0) .reservedField (.advance operand)
  else .error .reservedSelector

/-- The request a record stands for. -/
def requestOfRecord (w : Nat) : Except RecordError Request :=
  requestOfFields (recordSelector w) (recordUnit w) (recordOffset w) (recordOperand w)

/-- The operation a record selects. -/
def decodeRecord (w : Nat) : Except RecordError Instr :=
  match requestOfRecord w with
  | .ok r => .ok (decode r)
  | .error e => .error e

/-- The record of a request. -/
def recordOfRequest : Request → Nat
  | .timerRead t offset => packRecord 0 t offset 0
  | .timerWrite t offset value => packRecord 1 t offset value.toNat
  | .uartRead offset => packRecord 2 0 offset 0
  | .uartWrite offset value => packRecord 3 0 offset value.toNat
  | .timerFire t => packRecord 4 t 0 0
  | .timerReset t => packRecord 5 t 0 0
  | .uartCanReceive => packRecord 6 0 0 0
  | .uartReceive byte => packRecord 7 0 0 byte.toNat
  | .uartBreak => packRecord 8 0 0 0
  | .uartReset => packRecord 9 0 0 0
  | .advance time => packRecord 10 0 0 time

/-- The record of an operation. -/
def encodeRecord (i : Instr) : Nat := recordOfRequest (encode i)

/-- The operation the record of `nbits` bits `w` selects. The opcode table's word is the byte offset alone (R76: `match` and
`mask` "apply to the byte offset"; peripheral and direction are not bits of it), so with every bit above it zero it is the
Timer read at that offset (log entry 4). -/
def decodeTableWord (nbits w : Nat) : Option Instr :=
  match decodeRecord (w % 2 ^ nbits) with
  | .ok i => some i
  | .error _ => none

end Sys2Proof
end

