-- ==== Sys2Proof/Machine/State.lean ====
section
/-! DEFINITION. The state of the machine: the Timer units and the UART as 10_state.md gives them, virtual time, the transmit
stream, the parameters, and the model's own two fields (the requests not yet served, and the last answer). The block has no
memory, no program counter and no exception register (R12, R40, R170). -/

namespace Sys2Proof.Machine

/-- One Timer unit (R13 to R21, R33). Its IRQ line is a function of it (R22). -/
structure Timer where
  /-- `BASE_CLOCK` of this unit: a parameter (R6), changed by no operation. -/
  baseClock : Nat
  /-- `T.CTRL` (R14). -/
  ctrl : Word
  /-- `T.IEN` (R16). -/
  ien : Word
  /-- `T.IF` (R17). -/
  iflag : Word
  /-- `T.TOP` (R18). -/
  top : Word
  /-- The stored cell `T.CNT` (R19), not the live count a `CNT` read returns. -/
  cnt : Word
  /-- `T.rate` (R20), in ticks per `VTU` quanta. -/
  rate : Nat
  /-- `T.deadline` (R21): the absolute virtual time at which the callback is due, if one is pending. -/
  deadline : Option Nat
  deriving DecidableEq, Repr

/-- The UART (R24 to R28, R33). Its IRQ line is a function of it (R31). -/
structure Uart where
  /-- `U.STATUS` (R25). -/
  status : Word
  /-- `U.RXDATAX` (R26). -/
  rxdatax : Word
  /-- `U.IF` (R27). -/
  iflag : Word
  /-- `U.IEN` (R28). -/
  ien : Word
  deriving DecidableEq, Repr

/-- What a transition returns to the agent that asked for it (R61, R62): nothing, the `u32` of a read, or the boolean of the
can-receive query. The model's own, log entry 2. -/
inductive Response where
  | nothing
  | word (value : Word)
  | bool (value : Bool)
  deriving DecidableEq, Repr

/-- The whole machine. -/
structure State where
  /-- The shared parameters (R35); no operation changes them. -/
  config : Config
  /-- Virtual time, in quanta (R7). -/
  now : Nat
  /-- The Timer units; their number is `N_TIMERS` (R6, R34). -/
  timers : List Timer
  /-- The UART. -/
  uart : Uart
  /-- `U.tx` (R32): every byte sent, oldest first. -/
  tx : List Byte
  /-- The requests made and not yet served, oldest first (R50; the model's own, log entry 1). -/
  pending : List Request
  /-- What the last transition returned (the model's own, log entry 2). -/
  response : Response
  deriving DecidableEq, Repr

/-- The stuck states. The block itself raises no error at all (R170): each of these is an agent asking for a step it does not
have, so the machine stops. All are safe: nothing can be proved of what would follow (log entries 7 and 9). -/
inductive Fault where
  /-- Raised by `step`: no agent has asked for anything (R10: the block has no agent of its own). Safe. -/
  | noRequest
  /-- Raised by `TEV.FIRE` on a unit with no deadline, or one later than `now` (R115). Safe. -/
  | fireNotEnabled
  /-- Raised by `ENV.ADVANCE` to a time before `now` or past a pending deadline (R116). Safe. -/
  | advanceNotEnabled
  /-- Raised by `UEV.RX` while a byte or break waits unread (R159). Safe. -/
  | receiveNotEnabled
  /-- Raised by `UEV.CANRX`, `UEV.RX` and `UEV.BREAK` with no transport attached (R160). Safe. -/
  | transportNotAttached
  deriving DecidableEq, Repr

/-- Why an operation has no meaning here. -/
inductive Refusal where
  /-- Raised by `exec` for an operation with no meaning yet, by its mnemonic; no operation is in that case. Safe. -/
  | notModelled (mnemonic : String)
  /-- Raised by every Timer operation on a unit the machine does not have: address decoding is outside the block (R4, R6). Safe. -/
  | noSuchTimer
  deriving DecidableEq, Repr

/-- A Timer unit in its reset state (R37). -/
def Timer.initial (clock : Nat) : Timer :=
  { baseClock := clock, ctrl := 0, ien := 0, iflag := 0, top := 0, cnt := 0, rate := max 1 clock, deadline := none }

/-- The UART in its reset state (R38). -/
def Uart.initial : Uart := { status := 0x00000040, rxdatax := 0, iflag := 0, ien := 0 }

/-- A machine as the SoC composer builds it: every unit in its reset state (R39), at virtual time 0 with nothing sent and nothing
asked (log entries 1, 2, 6). -/
def State.initial (config : Config) (baseClocks : List Nat) : State :=
  { config := config, now := 0, timers := baseClocks.map Timer.initial, uart := Uart.initial, tx := [], pending := [],
    response := .nothing }

/-- The machine right after reset, with the sample parameters (log entry 3). -/
def State.reset : State := State.initial Config.sample sampleBaseClocks

end Sys2Proof.Machine
end

