-- ==== Sys2Proof/Machine/Operands.lean ====
section
/-! DEFINITION. The fields that the block extracts from a register value or a written value (30_encoding.md R65, R66, R71,
R73): by shift and mask, all unsigned. -/

namespace Sys2Proof.Machine

/-- The prescaler exponent, `(value >> 24) & 0xff` (R73). -/
def prescaler (ctrl : Word) : Nat := ((ctrl >>> 24) &&& 0xFF).toNat

/-- `MODE` is count-up, `value[1:0] = 0`; 1, 2 and 3 are not (R73, D10). -/
def countUp (ctrl : Word) : Bool := ctrl &&& 0x3 == 0

/-- `OSMEN`, bit 4 of `CTRL` (R65). -/
def oneShot (ctrl : Word) : Bool := ctrl.getLsbD 4

/-- `START`, bit 0 of a `CMD` write (R66). -/
def startPulse (value : Word) : Bool := value.getLsbD 0

/-- `STOP`, bit 1 of a `CMD` write (R66). -/
def stopPulse (value : Word) : Bool := value.getLsbD 1

/-- The byte a `TXDATA` write sends, `value[7:0]` (R71). -/
def txByte (value : Word) : Byte := value.setWidth 8

/-- `zext_32` of a byte (00_scope.md section 5). -/
def zext32 (byte : Byte) : Word := byte.setWidth 32

end Sys2Proof.Machine
end

