-- ==== Sys2Proof/Machine/Flags.lean ====
section
/-! DEFINITION. The flags (10_state.md R36), the write-one-to-set and write-one-to-clear computations (R52), the IRQ lines
(R22, R31) and the UART's update step (R155). -/

namespace Sys2Proof.Machine

/-- `OF`, Timer `IF[0]` (R67). -/
def overflowFlag : Word := 0x00000001

/-- `UF`, Timer `IF[1]` (R67). -/
def underflowFlag : Word := 0x00000002

/-- `TXBL`, UART `STATUS[6]` (R69). -/
def txBufferLevel : Word := 0x00000040

/-- `RXDATAV`, UART `STATUS[7]` (R69). -/
def rxDataValid : Word := 0x00000080

/-- `RXDATAV`, UART `IF[2]` (R72). -/
def rxDataValidFlag : Word := 0x00000004

/-- `FERR`, UART `RXDATAX[15]` (R70). -/
def framingError : Word := 0x00008000

/-- Every bit of `mask` set in `flags`, the others kept. -/
def setBits (flags mask : Word) : Word := flags ||| mask

/-- Every bit of `mask` cleared in `flags`, the others kept. -/
def clearBits (flags mask : Word) : Word := flags &&& ~~~mask

/-- An IRQ line: `(IF & IEN) != 0` over all 32 bits (R22, R31). -/
def lineLevel (flags enable : Word) : Bool := flags &&& enable != 0

/-- `T.irq` (R22). -/
def Timer.irq (T : Timer) : Bool := lineLevel T.iflag T.ien

/-- `U.irq` (R31). -/
def Uart.irq (U : Uart) : Bool := lineLevel U.iflag U.ien

/-- The flag the deadline callback sets: overflow if the mode is count-up, else underflow (R114). -/
def expiryFlag (ctrl : Word) : Word := if countUp ctrl then overflowFlag else underflowFlag

/-- `U.STATUS[7]`: a byte or break waits unread (R25). -/
def Uart.hasData (U : Uart) : Bool := U.status.getLsbD 7

/-- `UartUpdate` (R155): `IF[2]` follows `STATUS[7]`. The line follows by definition. -/
def Uart.update (U : Uart) : Uart :=
  { U with iflag := if U.hasData then setBits U.iflag rxDataValidFlag else clearBits U.iflag rxDataValidFlag }

end Sys2Proof.Machine
end

