-- ==== Sys2Proof/Machine/Ops.lean ====
section
/-! DEFINITION. The shared operations the meanings are written with: time conversion and the deadline (42_timer_events.md R110 to
R113), rate and expiry (41_timer_writes.md R91, R94), a read or a write of one Timer unit or of the UART, and taking or
presenting a request.

There is no exception to take and no return from one: no transition raises any (R170), trap entry belongs to the CPU (R181).
What the block gives an interrupt controller is the level of its lines (Flags.lean). -/

namespace Sys2Proof.Machine

/-- The outcome of one operation. -/
abbrev Result := Host.Outcome State Fault Refusal

/-- `ticks_to_time` (R110): `floor(n * VTU / rate)`, the product exact. -/
def ticksToTime (vtu rate n : Nat) : Nat := n * vtu / rate

/-- `time_to_ticks` (R111): `floor(t * rate / VTU)`, the product exact. -/
def timeToTicks (vtu rate t : Nat) : Nat := t * rate / vtu

/-- `max(1, floor(BASE_CLOCK / 2^p))` (R91, with D5's clamp). -/
def rateOf (baseClock : Nat) (ctrl : Word) : Nat := max 1 (baseClock / 2 ^ prescaler ctrl)

/-- The value of a `CNT` read: ticks of virtual time, modulo 2^32 (R84). -/
def Timer.liveCount (vtu now : Nat) (T : Timer) : Word := BitVec.ofNat 32 (timeToTicks vtu T.rate now)

/-- `Schedule(T, d)` (R112): replaces any pending deadline. -/
def Timer.schedule (d : Nat) (T : Timer) : Timer := { T with deadline := some d }

/-- `Cancel(T)` (R113). -/
def Timer.cancel (T : Timer) : Timer := { T with deadline := none }

/-- `Expiry(T)` (R94): the ticks a start has left to count. -/
def Timer.expiry (T : Timer) : Word :=
  let base := if oneShot T.ctrl then T.cnt else T.top
  if countUp T.ctrl then maxU32 - base else base

/-- Schedule the callback `ticks` ticks from `now`. -/
def Timer.arm (vtu now : Nat) (ticks : Word) (T : Timer) : Timer := T.schedule (now + ticksToTime vtu T.rate ticks.toNat)

/-- `TEV.FIRE` is enabled on the unit (R115): a deadline is pending and `now` has reached it. -/
def Timer.due (now : Nat) (T : Timer) : Bool :=
  match T.deadline with
  | some d => decide (d ≤ now)
  | none => false

/-- The unit lets virtual time move to `time` (R116): not beyond `max(d, now)` while its deadline `d` is pending. -/
def Timer.admits (now time : Nat) (T : Timer) : Bool :=
  match T.deadline with
  | some d => decide (time ≤ max d now)
  | none => true

/-- Return an answer to the agent that asked. -/
def State.respond (s : State) (r : Response) : State := { s with response := r }

/-- Replace Timer unit `t`. -/
def State.setTimer (s : State) (t : Nat) (T : Timer) : State := { s with timers := s.timers.set t T }

/-- Replace the UART. -/
def State.setUart (s : State) (U : Uart) : State := { s with uart := U }

/-- A Timer bus read (R80): the answer is computed from the unit, and nothing changes. -/
def readTimer (t : Nat) (answer : Timer → Word) (s : State) : Result :=
  match s.timers[t]? with
  | some T => .next (s.respond (.word (answer T)))
  | none => .refused .noSuchTimer

/-- A transition of one Timer unit that returns nothing (R90). -/
def updateTimer (t : Nat) (change : Timer → Timer) (s : State) : Result :=
  match s.timers[t]? with
  | some T => .next ((s.setTimer t (change T)).respond .nothing)
  | none => .refused .noSuchTimer

/-- A UART bus read that changes nothing (R125). -/
def readUart (answer : Uart → Word) (s : State) : Result := .next (s.respond (.word (answer s.uart)))

/-- A UART read at an offset with no readable register (R130): the update step, and 0. -/
def readUartUnmatched (s : State) : Result := .next ((s.setUart s.uart.update).respond (.word 0))

/-- A UART transition that returns nothing and ends with the update step (R140, R155). -/
def updateUart (change : Uart → Uart) (s : State) : Result :=
  .next ((s.setUart (change s.uart).update).respond .nothing)

/-- `transport.send(b)` if a transport is attached (R8, R144); otherwise the byte is dropped (R172). -/
def State.send (s : State) (b : Byte) : State :=
  if s.config.transportAttached then { s with tx := s.tx ++ [b] } else s

/-- An event of the transport: it happens only with a transport attached (R160). -/
def transportEvent (event : State → Result) (s : State) : Result :=
  if s.config.transportAttached then event s else .fault .transportNotAttached

/-- Store a received item and mark it valid (R157, R158); the update step follows. -/
def Uart.receive (item : Word) (U : Uart) : Uart :=
  { U with rxdatax := item, status := setBits U.status rxDataValid }

/-- The oldest request not yet served, and the state with it taken off. -/
def State.takeRequest (s : State) : Option (Request × State) :=
  match s.pending with
  | r :: rest => some (r, { s with pending := rest })
  | [] => none

/-- The request of a record put first, so that the next step serves it; a record that is no request leaves nothing to serve
(log entry 4). -/
def State.presentRecord (s : State) (w : Nat) : State :=
  match requestOfRecord w with
  | .ok r => { s with pending := r :: s.pending }
  | .error _ => { s with pending := [] }

end Sys2Proof.Machine
end

