-- ==== Sys2Proof/Machine/TimerEvents.lean ====
section
/-! DEFINITION. The Timer's events (42_timer_events.md R114, 70_reset_and_hazards.md R200) and the advance of virtual time (R116). -/

namespace Sys2Proof.Machine

/-- The deadline callback on a unit (R114): the deadline is consumed and the flag of the mode at this moment is set. -/
def Timer.expire (T : Timer) : Timer := { T.cancel with iflag := setBits T.iflag (expiryFlag T.ctrl) }

/-- `TEV.FIRE` (R114), enabled exactly when the deadline is due (R115). -/
def execTevFire (t : Nat) (s : State) : Result :=
  match s.timers[t]? with
  | some T => if T.due s.now then updateTimer t Timer.expire s else .fault .fireNotEnabled
  | none => .refused .noSuchTimer

/-- `reset()` on a unit (R200): the five cells, the deadline and the rate; the parameters stay (R203). -/
def Timer.resetUnit (T : Timer) : Timer :=
  { baseClock := T.baseClock, ctrl := 0, ien := 0, iflag := 0, top := 0, cnt := 0, rate := rateOf T.baseClock 0, deadline := none }

/-- `TEV.RESET` (R200). -/
def execTevReset (t : Nat) (s : State) : Result := updateTimer t Timer.resetUnit s

/-- `ENV.ADVANCE` (R116), enabled when time does not go back and no unit's pending deadline is passed. -/
def execEnvAdvance (time : Nat) (s : State) : Result :=
  if s.now ≤ time ∧ s.timers.all (Timer.admits s.now time) = true then
    .next ({ s with now := time }.respond .nothing)
  else .fault .advanceNotEnabled

end Sys2Proof.Machine
end

