-- ==== Sys2Proof/Machine/TimerReads.lean ====
section
/-! DEFINITION. Timer bus reads (40_timer_reads.md). No Timer read changes any state (R80). -/

namespace Sys2Proof.Machine

/-- `TRD.CTRL` (R81). -/
def execTrdCtrl (t : Nat) (s : State) : Result := readTimer t (fun T => T.ctrl) s

/-- `TRD.CMD` (R86): a read of a write-only register returns 0. -/
def execTrdCmd (t : Nat) (s : State) : Result := readTimer t (fun _ => 0) s

/-- `TRD.IEN` (R82). -/
def execTrdIen (t : Nat) (s : State) : Result := readTimer t (fun T => T.ien) s

/-- `TRD.IF` (R83): the read clears nothing. -/
def execTrdIf (t : Nat) (s : State) : Result := readTimer t (fun T => T.iflag) s

/-- `TRD.IFS` (R86). -/
def execTrdIfs (t : Nat) (s : State) : Result := readTimer t (fun _ => 0) s

/-- `TRD.IFC` (R86). -/
def execTrdIfc (t : Nat) (s : State) : Result := readTimer t (fun _ => 0) s

/-- `TRD.TOP` (R85). -/
def execTrdTop (t : Nat) (s : State) : Result := readTimer t (fun T => T.top) s

/-- `TRD.CNT` (R84): the live count, not the stored cell. -/
def execTrdCnt (t : Nat) (s : State) : Result := readTimer t (Timer.liveCount s.config.vtu s.now) s

/-- `TRD.UNK` (R87): "Unknown offsets return 0." -/
def execTrdUnk (t _offset : Nat) (s : State) : Result := readTimer t (fun _ => 0) s

end Sys2Proof.Machine
end

