-- ==== Sys2Proof/Machine/TimerWrites.lean ====
section
/-! DEFINITION. Timer bus writes (41_timer_writes.md). The IRQ line is a function of the state (R22), so no meaning recomputes it. -/

namespace Sys2Proof.Machine

/-- `TWR.CTRL` (R91): the deadline is not touched. -/
def execTwrCtrl (t : Nat) (value : Word) (s : State) : Result :=
  updateTimer t (fun T => { T with ctrl := value, rate := rateOf T.baseClock value }) s

/-- The start pulse of `CMD` (R93). -/
def Timer.startIf (pulse : Bool) (vtu now : Nat) (T : Timer) : Timer := if pulse then T.arm vtu now T.expiry else T

/-- The stop pulse of `CMD` (R93). -/
def Timer.stopIf (pulse : Bool) (T : Timer) : Timer := if pulse then T.cancel else T

/-- `TWR.CMD` (R93): start, then stop. -/
def execTwrCmd (t : Nat) (value : Word) (s : State) : Result :=
  updateTimer t (fun T => (T.startIf (startPulse value) s.config.vtu s.now).stopIf (stopPulse value)) s

/-- `TWR.IEN` (R92). -/
def execTwrIen (t : Nat) (value : Word) (s : State) : Result := updateTimer t (fun T => { T with ien := value }) s

/-- `TWR.IF` (R96): a direct write is ignored. -/
def execTwrIf (t : Nat) (_value : Word) (s : State) : Result := updateTimer t (fun T => T) s

/-- `TWR.IFS` (R95). -/
def execTwrIfs (t : Nat) (value : Word) (s : State) : Result :=
  updateTimer t (fun T => { T with iflag := setBits T.iflag value }) s

/-- The re-arm of an `IFC` write (R99): in periodic mode, `TOP` ticks from now. -/
def Timer.rearm (vtu now : Nat) (T : Timer) : Timer := if oneShot T.ctrl then T else T.arm vtu now T.top

/-- `TWR.IFC` (R99). -/
def execTwrIfc (t : Nat) (value : Word) (s : State) : Result :=
  updateTimer t (fun T => Timer.rearm s.config.vtu s.now { T with iflag := clearBits T.iflag value }) s

/-- `TWR.TOP` (R97): the deadline is not touched. -/
def execTwrTop (t : Nat) (value : Word) (s : State) : Result := updateTimer t (fun T => { T with top := value }) s

/-- `TWR.CNT` (R98): the stored cell. -/
def execTwrCnt (t : Nat) (value : Word) (s : State) : Result := updateTimer t (fun T => { T with cnt := value }) s

/-- `TWR.UNK` (R101): nothing changes. -/
def execTwrUnk (t _offset : Nat) (_value : Word) (s : State) : Result := updateTimer t (fun T => T) s

end Sys2Proof.Machine
end

