-- ==== Sys2Proof/Machine/UartEvents.lean ====
section
/-! DEFINITION. The UART's transport events (45_uart_events.md R156 to R160) and its reset (70_reset_and_hazards.md R201). -/

namespace Sys2Proof.Machine

/-- `UEV.CANRX` (R156). -/
def execUevCanrx (s : State) : Result :=
  transportEvent (fun s => .next (s.respond (.bool (!s.uart.hasData)))) s

/-- `UEV.RX` (R157), enabled only while nothing waits unread (R159). -/
def execUevRx (byte : Byte) (s : State) : Result :=
  transportEvent (fun s => if s.uart.hasData then .fault .receiveNotEnabled else updateUart (Uart.receive (zext32 byte)) s) s

/-- `UEV.BREAK` (R158), not gated. -/
def execUevBreak (s : State) : Result :=
  transportEvent (fun s => updateUart (Uart.receive (framingError ||| zext32 s.config.breakByte)) s) s

/-- `reset()` of the UART, before its update step (R201): all registers zeroed, then `TXBL` set. -/
def Uart.zeroed (_U : Uart) : Uart := { status := setBits 0 txBufferLevel, rxdatax := 0, iflag := 0, ien := 0 }

/-- `UEV.RESET` (R201): `U.tx` stays. -/
def execUevReset (s : State) : Result := updateUart Uart.zeroed s

end Sys2Proof.Machine
end

