-- ==== Sys2Proof/Machine/UartReads.lean ====
section
/-! DEFINITION. UART bus reads (43_uart_reads.md). -/

namespace Sys2Proof.Machine

/-- `URD.CMD` (R131). -/
def execUrdCmd (s : State) : Result := readUartUnmatched s

/-- `URD.STATUS` (R127). -/
def execUrdStatus (s : State) : Result := readUart (fun U => U.status) s

/-- The clearing side effect of an `RXDATAX` read (R126): `RXDATAV` falls, the data register stays. -/
def Uart.release (U : Uart) : Uart := { U with status := clearBits U.status rxDataValid }

/-- `URD.RXDATAX` (R126). -/
def execUrdRxdatax (s : State) : Result :=
  .next ((s.setUart s.uart.release.update).respond (.word s.uart.rxdatax))

/-- `URD.TXDATA` (R131). -/
def execUrdTxdata (s : State) : Result := readUartUnmatched s

/-- `URD.IF` (R128). -/
def execUrdIf (s : State) : Result := readUart (fun U => U.iflag) s

/-- `URD.IFS` (R131). -/
def execUrdIfs (s : State) : Result := readUartUnmatched s

/-- `URD.IFC` (R131). -/
def execUrdIfc (s : State) : Result := readUartUnmatched s

/-- `URD.IEN` (R129). -/
def execUrdIen (s : State) : Result := readUart (fun U => U.ien) s

/-- `URD.UNK` (R130). -/
def execUrdUnk (_offset : Nat) (s : State) : Result := readUartUnmatched s

end Sys2Proof.Machine
end

