-- ==== Sys2Proof/Machine/UartWrites.lean ====
section
/-! DEFINITION. UART bus writes (44_uart_writes.md). Every one ends with the update step (R140). -/

namespace Sys2Proof.Machine

/-- `UWR.CMD` (R146): ignored. -/
def execUwrCmd (_value : Word) (s : State) : Result := updateUart (fun U => U) s

/-- `UWR.STATUS` (R146): ignored. -/
def execUwrStatus (_value : Word) (s : State) : Result := updateUart (fun U => U) s

/-- `UWR.RXDATAX` (R146): ignored. -/
def execUwrRxdatax (_value : Word) (s : State) : Result := updateUart (fun U => U) s

/-- `UWR.TXDATA` (R144): the low byte is sent at once. -/
def execUwrTxdata (value : Word) (s : State) : Result := updateUart (fun U => U) (s.send (txByte value))

/-- `UWR.IF` (R145): ignored. -/
def execUwrIf (_value : Word) (s : State) : Result := updateUart (fun U => U) s

/-- `UWR.IFS` (R142): the update step puts bit 2 back. -/
def execUwrIfs (value : Word) (s : State) : Result := updateUart (fun U => { U with iflag := setBits U.iflag value }) s

/-- `UWR.IFC` (R143): the update step puts bit 2 back. -/
def execUwrIfc (value : Word) (s : State) : Result := updateUart (fun U => { U with iflag := clearBits U.iflag value }) s

/-- `UWR.IEN` (R141). -/
def execUwrIen (value : Word) (s : State) : Result := updateUart (fun U => { U with ien := value }) s

/-- `UWR.UNK` (R147). -/
def execUwrUnk (_offset : Nat) (_value : Word) (s : State) : Result := updateUart (fun U => U) s

end Sys2Proof.Machine
end

