-- ==== Sys2Proof/Machine/Dispatch.lean ====
section
/-! DEFINITION. The one match from an operation to its meaning. -/

namespace Sys2Proof.Machine

def exec (i : Instr) (s : State) : Host.Outcome State Fault Refusal :=
  match i with
  | .trdCtrl t => Sys2Proof.Machine.execTrdCtrl t s
  | .trdCmd t => Sys2Proof.Machine.execTrdCmd t s
  | .trdIen t => Sys2Proof.Machine.execTrdIen t s
  | .trdIf t => Sys2Proof.Machine.execTrdIf t s
  | .trdIfs t => Sys2Proof.Machine.execTrdIfs t s
  | .trdIfc t => Sys2Proof.Machine.execTrdIfc t s
  | .trdTop t => Sys2Proof.Machine.execTrdTop t s
  | .trdCnt t => Sys2Proof.Machine.execTrdCnt t s
  | .trdUnk t offset => Sys2Proof.Machine.execTrdUnk t offset s
  | .twrCtrl t value => Sys2Proof.Machine.execTwrCtrl t value s
  | .twrCmd t value => Sys2Proof.Machine.execTwrCmd t value s
  | .twrIen t value => Sys2Proof.Machine.execTwrIen t value s
  | .twrIf t value => Sys2Proof.Machine.execTwrIf t value s
  | .twrIfs t value => Sys2Proof.Machine.execTwrIfs t value s
  | .twrIfc t value => Sys2Proof.Machine.execTwrIfc t value s
  | .twrTop t value => Sys2Proof.Machine.execTwrTop t value s
  | .twrCnt t value => Sys2Proof.Machine.execTwrCnt t value s
  | .twrUnk t offset value => Sys2Proof.Machine.execTwrUnk t offset value s
  | .tevFire t => Sys2Proof.Machine.execTevFire t s
  | .tevReset t => Sys2Proof.Machine.execTevReset t s
  | .urdCmd => Sys2Proof.Machine.execUrdCmd s
  | .urdStatus => Sys2Proof.Machine.execUrdStatus s
  | .urdRxdatax => Sys2Proof.Machine.execUrdRxdatax s
  | .urdTxdata => Sys2Proof.Machine.execUrdTxdata s
  | .urdIf => Sys2Proof.Machine.execUrdIf s
  | .urdIfs => Sys2Proof.Machine.execUrdIfs s
  | .urdIfc => Sys2Proof.Machine.execUrdIfc s
  | .urdIen => Sys2Proof.Machine.execUrdIen s
  | .urdUnk offset => Sys2Proof.Machine.execUrdUnk offset s
  | .uwrCmd value => Sys2Proof.Machine.execUwrCmd value s
  | .uwrStatus value => Sys2Proof.Machine.execUwrStatus value s
  | .uwrRxdatax value => Sys2Proof.Machine.execUwrRxdatax value s
  | .uwrTxdata value => Sys2Proof.Machine.execUwrTxdata value s
  | .uwrIf value => Sys2Proof.Machine.execUwrIf value s
  | .uwrIfs value => Sys2Proof.Machine.execUwrIfs value s
  | .uwrIfc value => Sys2Proof.Machine.execUwrIfc value s
  | .uwrIen value => Sys2Proof.Machine.execUwrIen value s
  | .uwrUnk offset value => Sys2Proof.Machine.execUwrUnk offset value s
  | .uevCanrx => Sys2Proof.Machine.execUevCanrx s
  | .uevRx byte => Sys2Proof.Machine.execUevRx byte s
  | .uevBreak => Sys2Proof.Machine.execUevBreak s
  | .uevReset => Sys2Proof.Machine.execUevReset s
  | .envAdvance time => Sys2Proof.Machine.execEnvAdvance time s

end Sys2Proof.Machine
end

