-- ==== Sys2Proof/Machine/Step.lean ====
section
/-! DEFINITION. One step: the oldest request of the total order (R50) is decoded and run as one atomic transition (R49). -/

namespace Sys2Proof.Machine

/-- Serve one request; with none, the block does nothing of its own (R10) and the machine is stuck. -/
def step (s : State) : Host.Outcome State Fault Refusal :=
  match s.takeRequest with
  | some (r, s') => exec (decode r) s'
  | none => .fault .noRequest

/-- `s` with the request whose record is the low `nbits` bits of `w` put first, so that the next step serves it (log entries 1
and 4). -/
def State.withFetchWord (s : State) (nbits w : Nat) : State := s.presentRecord (w % 2 ^ nbits)

end Sys2Proof.Machine
end

