-- ==== Sys2Proof/Safety.lean ====
section
/-! DEFINITION. What counts as a good state and a good run: the invariant of the machine (R23, R25, R26, R30, R32, R115, R160), when
an operation has a step at all (R115, R116, R159, R160, R170), and a run of several operations. -/

namespace Sys2Proof.Machine

/-- R23 (b), (c): the rate follows `CTRL` and is at least 1; R115: virtual time has not passed the pending deadline; R6: the
base clock is a legal one. -/
structure Timer.Inv (now : Nat) (T : Timer) : Prop where
  clock_pos : 1 ≤ T.baseClock
  clock_lt : T.baseClock < 2 ^ 32
  rate_eq : T.rate = max 1 (T.baseClock / 2 ^ (T.ctrl.toNat / 2 ^ 24))
  not_passed : ∀ d, T.deadline = some d → now ≤ d

/-- R30: `IF[2] = STATUS[7]`; R25 and R127: `STATUS` is 0x40 or 0xC0; R26: the bits of `RXDATAX` that are always 0. -/
structure Uart.Inv (U : Uart) : Prop where
  derived_flag : U.iflag.getLsbD 2 = U.status.getLsbD 7
  status_legal : U.status = 0x40 ∨ U.status = 0xC0
  rxdatax_legal : U.rxdatax &&& 0xFFFF7F00 = 0

/-- A state the machine can be in: legal parameters (R6), every Timer unit and the UART as above, and, with no transport,
nothing sent and nothing received (R32, R160). -/
structure State.Inv (s : State) : Prop where
  vtu_pos : 1 ≤ s.config.vtu
  vtu_lt : s.config.vtu < 2 ^ 32
  some_timer : s.timers ≠ []
  timers : ∀ T ∈ s.timers, T.Inv s.now
  uart : s.uart.Inv
  unattached : s.config.transportAttached = false → s.tx = [] ∧ s.uart.status = 0x40 ∧ s.uart.rxdatax = 0

/-- When the agent that asks for an operation has that step, in terms of the state and the operands alone: the Timer unit exists
(R6); the deadline is due (R115); time may move there (R116); nothing waits unread (R159); a transport is attached (R160).
Every other operation always has its step (R170). -/
def Enabled (s : State) (i : Instr) : Prop :=
  i.unitOk s.timers.length = true ∧
    match i with
    | .tevFire t => ∃ T d, s.timers[t]? = some T ∧ T.deadline = some d ∧ d ≤ s.now
    | .envAdvance time => s.now ≤ time ∧ ∀ T ∈ s.timers, ∀ d, T.deadline = some d → time ≤ max d s.now
    | .uevRx _ => s.config.transportAttached = true ∧ s.uart.status.getLsbD 7 = false
    | .uevCanrx | .uevBreak => s.config.transportAttached = true
    | .trdCtrl _ | .trdCmd _ | .trdIen _ | .trdIf _ | .trdIfs _ | .trdIfc _ | .trdTop _ | .trdCnt _ | .trdUnk _ _
    | .twrCtrl _ _ | .twrCmd _ _ | .twrIen _ _ | .twrIf _ _ | .twrIfs _ _ | .twrIfc _ _ | .twrTop _ _ | .twrCnt _ _
    | .twrUnk _ _ _ | .tevReset _ | .urdCmd | .urdStatus | .urdRxdatax | .urdTxdata | .urdIf | .urdIfs | .urdIfc
    | .urdIen | .urdUnk _ | .uwrCmd _ | .uwrStatus _ | .uwrRxdatax _ | .uwrTxdata _ | .uwrIf _ | .uwrIfs _
    | .uwrIfc _ | .uwrIen _ | .uwrUnk _ _ | .uevReset => True

/-- R142 and R143's net effect on `IF`: `(flags & ~0x4) | (STATUS[7] << 2)`. -/
def netFlags (status flags : Word) : Word := (flags &&& ~~~(0x4 : Word)) ||| (((status >>> 7) &&& (0x1 : Word)) <<< 2)

/-- R94's table: the expiry of a start, in ticks. -/
def expiryTicks (T : Timer) : Nat :=
  let base := if T.ctrl.getLsbD 4 then T.cnt.toNat else T.top.toNat
  if T.ctrl.toNat % 4 = 0 then 4294967295 - base else base

/-- R114: the flag of the mode the unit is in. -/
def modeFlag (T : Timer) : Word := if T.ctrl.toNat % 4 = 0 then 0x1 else 0x2

/-- Run a list of operations, stopping at the first that stops. -/
def runAll : List Instr → State → Host.Outcome State Fault Refusal
  | [], s => .next s
  | i :: rest, s =>
    match exec i s with
    | .next s' => runAll rest s'
    | .fault r => .fault r
    | .refused r => .refused r

end Sys2Proof.Machine
end

