-- ==== Sys2Proof/Certificates/Slice0/Obligations.lean ====
section
/-! DEFINITION. The statements for the provers. A result statement gives the WHOLE next state, so it is also the operation's
frame and says where the operation completes. `D<n>` in a docstring names the decision of 92_eei_decisions.md that the spec marks
as its own choice; such a statement is derived, not stated. -/

open Sys2Proof Sys2Proof.Machine

/-! ### Encoding -/

/-- R61: the operation is selected by direction and exact offset; every other offset selects `UNK`. The rows are those of R63 and
R64. -/
def Obligations.OffsetsSelectOperationsByExactMatch : Prop :=
  (∀ t : Nat, [0x00, 0x04, 0x0C, 0x10, 0x14, 0x18, 0x1C, 0x24].map (fun o => decode (.timerRead t o)) =
      [.trdCtrl t, .trdCmd t, .trdIen t, .trdIf t, .trdIfs t, .trdIfc t, .trdTop t, .trdCnt t]) ∧
  (∀ (t : Nat) (v : Word), [0x00, 0x04, 0x0C, 0x10, 0x14, 0x18, 0x1C, 0x24].map (fun o => decode (.timerWrite t o v)) =
      [.twrCtrl t v, .twrCmd t v, .twrIen t v, .twrIf t v, .twrIfs t v, .twrIfc t v, .twrTop t v, .twrCnt t v]) ∧
  ([0x0C, 0x10, 0x18, 0x34, 0x40, 0x44, 0x48, 0x4C].map (fun o => decode (.uartRead o)) =
      [.urdCmd, .urdStatus, .urdRxdatax, .urdTxdata, .urdIf, .urdIfs, .urdIfc, .urdIen]) ∧
  (∀ v : Word, [0x0C, 0x10, 0x18, 0x34, 0x40, 0x44, 0x48, 0x4C].map (fun o => decode (.uartWrite o v)) =
      [.uwrCmd v, .uwrStatus v, .uwrRxdatax v, .uwrTxdata v, .uwrIf v, .uwrIfs v, .uwrIfc v, .uwrIen v]) ∧
  (∀ (t o : Nat) (v : Word), o ∉ [0x00, 0x04, 0x0C, 0x10, 0x14, 0x18, 0x1C, 0x24] →
      decode (.timerRead t o) = .trdUnk t o ∧ decode (.timerWrite t o v) = .twrUnk t o v) ∧
  (∀ (o : Nat) (v : Word), o ∉ [0x0C, 0x10, 0x18, 0x34, 0x40, 0x44, 0x48, 0x4C] →
      decode (.uartRead o) = .urdUnk o ∧ decode (.uartWrite o v) = .uwrUnk o v)

/-- Every operation with a legal offset has exactly one request, and every request one operation. -/
def Obligations.RequestsAndOperationsCorrespond : Prop :=
  (∀ i : Instr, i.offsetOk = true → decode (encode i) = i) ∧
  (∀ r : Request, encode (decode r) = r ∧ (decode r).offsetOk = true)

/-- The model's bit record (log entry 4, the model's choice) loses no operand: decoding the record of any operation with a legal
offset and operands that fit gives it back. -/
def Obligations.RecordRoundTripsForEveryOperation : Prop :=
  ∀ i : Instr, i.offsetOk = true → i.recordOk = true → decodeRecord (encodeRecord i) = .ok i

/-- Records written out from the offsets of the register maps (log entry 4 gives the other fields, the model's choice). -/
def Obligations.WrittenOutRecordsDecode : Prop :=
  decodeRecord 0x24 = .ok (.trdCnt 0) ∧
  decodeRecord 0x00000001_00000301_00000018 = .ok (.twrIfc 3 1) ∧
  decodeRecord 0x00000041_00000003_00000034 = .ok (.uwrTxdata 0x41) ∧
  decodeRecord 0x00000002_00000018 = .ok .urdRxdatax ∧
  decodeRecord 0x0000007A_00000007_00000000 = .ok (.uevRx 0x7A) ∧
  decodeRecord 0x00000204_00000000 = .ok (.tevFire 2) ∧
  decodeRecord 0x000F4240_0000000A_00000000 = .ok (.envAdvance 1000000)

/-! ### The step -/

/-- A step takes the oldest request and runs the operation it decodes to; with no request it stops. `withFetchWord` makes the next
step run exactly the operation whose record it is given (log entries 1, 4 and 9, the model's choice). -/
def Obligations.StepRunsTheDecodedRequest : Prop :=
  (∀ (s : State) (r : Request) (rest : List Request), s.pending = r :: rest →
      step s = exec (decode r) { s with pending := rest }) ∧
  (∀ s : State, s.pending = [] → step s = .fault .noRequest) ∧
  (∀ (s : State) (i : Instr) (nbits : Nat), i.offsetOk = true → i.recordOk = true → encodeRecord i < 2 ^ nbits →
      step (s.withFetchWord nbits (encodeRecord i)) = exec i s)

/-- R170: no transition fails; an operation completes exactly when the agent that asks has that step (`Enabled`). -/
def Obligations.OperationsCompleteExactlyWhenEnabled : Prop :=
  ∀ (i : Instr) (s : State), (∃ s', exec i s = .next s') ↔ Enabled s i

/-- Where an agent has no step the machine stops by name (D18, D25; log entries 7 and 8). -/
def Obligations.StepsThatDoNotExistStopByName : Prop :=
  (∀ (s : State) (t : Nat) (T : Timer), s.timers[t]? = some T → (∀ d, T.deadline = some d → s.now < d) →
      exec (.tevFire t) s = .fault .fireNotEnabled) ∧
  (∀ (s : State) (time : Nat), (time < s.now ∨ ∃ T ∈ s.timers, ∃ d, T.deadline = some d ∧ max d s.now < time) →
      exec (.envAdvance time) s = .fault .advanceNotEnabled) ∧
  (∀ (s : State) (b : Byte), s.config.transportAttached = true → s.uart.status.getLsbD 7 = true →
      exec (.uevRx b) s = .fault .receiveNotEnabled) ∧
  (∀ (s : State) (i : Instr), i.unitOk s.timers.length = false → exec i s = .refused .noSuchTimer)

/-! ### Invariants and whole-machine rules -/

/-- R23, R25, R26, R30, R32, R115: every step keeps the invariant, from every state that has it. -/
def Obligations.EveryStepKeepsTheInvariant : Prop :=
  ∀ s s' : State, s.Inv → step s = .next s' → s'.Inv

/-- A machine built with any legal parameters starts in the invariant (D30), and so does `State.reset`. -/
def Obligations.InitialStatesMeetTheInvariant : Prop :=
  (∀ (c : Config) (clocks : List Nat), c.wf = true → baseClocksWf clocks = true → (State.initial c clocks).Inv) ∧
  State.reset.Inv

/-- Any number of steps keeps the invariant. -/
def Obligations.RunsKeepTheInvariant : Prop :=
  ∀ (k : Nat) (s s' : State), s.Inv → Host.Core.run Sys2Proof.core k s = .next s' → s'.Inv

/-- R30: after every UART transition `IF[2] = STATUS[7]`: every operation keeps the equality, and every UART transition other than
the three plain reads and the query makes it hold whatever was before. -/
def Obligations.ReceiveFlagEqualsDataValid : Prop :=
  (∀ (i : Instr) (s s' : State), exec i s = .next s' → s.uart.iflag.getLsbD 2 = s.uart.status.getLsbD 7 →
      s'.uart.iflag.getLsbD 2 = s'.uart.status.getLsbD 7) ∧
  (∀ (i : Instr) (s s' : State), exec i s = .next s' → i.target = .uart →
      i ∉ [.urdStatus, .urdIf, .urdIen, .uevCanrx] → s'.uart.iflag.getLsbD 2 = s'.uart.status.getLsbD 7)

/-- 10_state.md and 60_exceptions.md: each line is the OR of the enabled pending bits over all 32 bits (D17). -/
def Obligations.IrqLineIsTheOrOfEnabledPendingBits : Prop :=
  (∀ T : Timer, T.irq = true ↔ ∃ k, k < 32 ∧ T.iflag.getLsbD k = true ∧ T.ien.getLsbD k = true) ∧
  (∀ U : Uart, U.irq = true ↔ ∃ k, k < 32 ∧ U.iflag.getLsbD k = true ∧ U.ien.getLsbD k = true)

/-- R34: a transition of one unit reads and writes that unit only, plus `now` (and the fixed parameters): what it leaves in its
unit and answers is the same in any two states that agree there, and the other units stay. -/
def Obligations.TransitionsTouchOneUnitOnly : Prop :=
  (∀ (t : Nat) (i : Instr) (s₁ s₂ s₁' : State), i.target = .timer t → s₁.timers[t]? = s₂.timers[t]? → s₁.now = s₂.now →
      s₁.config = s₂.config → exec i s₁ = .next s₁' →
      (∃ s₂', exec i s₂ = .next s₂' ∧ s₂'.timers[t]? = s₁'.timers[t]? ∧ s₂'.response = s₁'.response) ∧
      s₁'.uart = s₁.uart ∧ s₁'.tx = s₁.tx ∧ s₁'.now = s₁.now ∧ s₁'.timers.length = s₁.timers.length ∧
      ∀ u, u ≠ t → s₁'.timers[u]? = s₁.timers[u]?) ∧
  (∀ (i : Instr) (s₁ s₂ s₁' : State), i.target = .uart → s₁.uart = s₂.uart → s₁.tx = s₂.tx → s₁.config = s₂.config →
      exec i s₁ = .next s₁' →
      (∃ s₂', exec i s₂ = .next s₂' ∧ s₂'.uart = s₁'.uart ∧ s₂'.tx = s₁'.tx ∧ s₂'.response = s₁'.response) ∧
      s₁'.timers = s₁.timers ∧ s₁'.now = s₁.now)

/-- The frame of every operation on a Timer unit, field by field: which operations may change each (D15, D16 among the rules it
rests on). -/
def Obligations.TimerCellsChangeOnlyByTheirOperations : Prop :=
  ∀ (i : Instr) (s s' : State) (t : Nat) (T T' : Timer), exec i s = .next s' → s.timers[t]? = some T →
    s'.timers[t]? = some T' →
    T'.baseClock = T.baseClock ∧
    (T'.ctrl ≠ T.ctrl → (∃ v, i = .twrCtrl t v) ∨ i = .tevReset t) ∧
    (T'.rate ≠ T.rate → (∃ v, i = .twrCtrl t v) ∨ i = .tevReset t) ∧
    (T'.ien ≠ T.ien → (∃ v, i = .twrIen t v) ∨ i = .tevReset t) ∧
    (T'.top ≠ T.top → (∃ v, i = .twrTop t v) ∨ i = .tevReset t) ∧
    (T'.cnt ≠ T.cnt → (∃ v, i = .twrCnt t v) ∨ i = .tevReset t) ∧
    (T'.iflag ≠ T.iflag → (∃ v, i = .twrIfs t v) ∨ (∃ v, i = .twrIfc t v) ∨ i = .tevFire t ∨ i = .tevReset t) ∧
    (T'.deadline ≠ T.deadline → (∃ v, i = .twrCmd t v) ∨ (∃ v, i = .twrIfc t v) ∨ i = .tevFire t ∨ i = .tevReset t)

/-- The frame of every operation outside the Timer units: which operations may change each UART cell, the stream and time; the
parameters and the waiting requests never change. -/
def Obligations.UartCellsChangeOnlyByTheirOperations : Prop :=
  ∀ (i : Instr) (s s' : State), exec i s = .next s' →
    s'.config = s.config ∧ s'.pending = s.pending ∧
    (s'.uart.status ≠ s.uart.status → i = .urdRxdatax ∨ (∃ b, i = .uevRx b) ∨ i = .uevBreak ∨ i = .uevReset) ∧
    (s'.uart.rxdatax ≠ s.uart.rxdatax → (∃ b, i = .uevRx b) ∨ i = .uevBreak ∨ i = .uevReset) ∧
    (s'.uart.ien ≠ s.uart.ien → (∃ v, i = .uwrIen v) ∨ i = .uevReset) ∧
    (∀ k, k ≠ 2 → s'.uart.iflag.getLsbD k ≠ s.uart.iflag.getLsbD k →
      (∃ v, i = .uwrIfs v) ∨ (∃ v, i = .uwrIfc v) ∨ i = .uevReset) ∧
    (s'.tx ≠ s.tx → ∃ v, i = .uwrTxdata v) ∧
    (s'.now ≠ s.now → i = .envAdvance s'.now)

/-- 10_state.md and 60_exceptions.md's tables of interrupt sources: what sets and what clears each bit of a Timer's `IF`, and that a
bus write of `IF` itself does neither (D10, D12, D15). -/
def Obligations.TimerFlagBitsMoveOnlyByTheirSources : Prop :=
  ∀ (i : Instr) (s s' : State) (t k : Nat) (T T' : Timer), exec i s = .next s' → s.timers[t]? = some T →
    s'.timers[t]? = some T' →
    (T.iflag.getLsbD k = false → T'.iflag.getLsbD k = true →
      (∃ v, i = .twrIfs t v ∧ v.getLsbD k = true) ∨
      (i = .tevFire t ∧ ((T.ctrl.toNat % 4 = 0 ∧ k = 0) ∨ (T.ctrl.toNat % 4 ≠ 0 ∧ k = 1)))) ∧
    (T.iflag.getLsbD k = true → T'.iflag.getLsbD k = false → (∃ v, i = .twrIfc t v ∧ v.getLsbD k = true) ∨ i = .tevReset t)

/-- 45_uart_events.md's two-state machine: the UART becomes full only by a byte or a break, and empty only by an `RXDATAX` read or
reset. -/
def Obligations.ReceiverFillsAndEmptiesOnlyByItsEvents : Prop :=
  ∀ (i : Instr) (s s' : State), exec i s = .next s' →
    (s.uart.status.getLsbD 7 = false → s'.uart.status.getLsbD 7 = true → (∃ b, i = .uevRx b) ∨ i = .uevBreak) ∧
    (s.uart.status.getLsbD 7 = true → s'.uart.status.getLsbD 7 = false → i = .urdRxdatax ∨ i = .uevReset)

/-- R32: the transmit stream is append-only, one byte for each `TXDATA` write in write order, and stays empty with no transport. -/
def Obligations.TransmitStreamIsAppendOnly : Prop :=
  (∀ (i : Instr) (s s' : State), exec i s = .next s' →
      s'.tx = s.tx ∨ (s.config.transportAttached = true ∧
        ∃ v : Word, i = .uwrTxdata v ∧ s'.tx = s.tx ++ [BitVec.ofNat 8 (v.toNat % 256)])) ∧
  (∀ (l : List Instr) (s s' : State), s.config.transportAttached = false → s.tx = [] → runAll l s = .next s' → s'.tx = [])

/-- Virtual time is monotonic and only the host's advance moves it, over any run. -/
def Obligations.VirtualTimeNeverGoesBack : Prop :=
  (∀ (l : List Instr) (s s' : State), runAll l s = .next s' → s.now ≤ s'.now) ∧
  (∀ (l : List Instr) (s s' : State), (∀ i ∈ l, ∀ time, i ≠ .envAdvance time) → runAll l s = .next s' → s'.now = s.now)

/-- The parameters (R6) stay what they were at construction, over any run. -/
def Obligations.ParametersNeverChange : Prop :=
  ∀ (l : List Instr) (s s' : State), runAll l s = .next s' →
    s'.config = s.config ∧ s'.timers.map (fun T => T.baseClock) = s.timers.map (fun T => T.baseClock)

/-! ### Timer reads -/

/-- R81 and R82: `CTRL` and `IEN` read back all 32 bits as last written, and 0 after reset; nothing else changes them. -/
def Obligations.ControlAndEnableReadBackAsWritten : Prop :=
  ∀ (t : Nat) (s : State) (T : Timer), s.timers[t]? = some T →
    exec (.trdCtrl t) s = .next { s with response := .word T.ctrl } ∧
    exec (.trdIen t) s = .next { s with response := .word T.ien } ∧
    (∀ (v : Word) (s' : State), exec (.twrCtrl t v) s = .next s' → exec (.trdCtrl t) s' = .next { s' with response := .word v }) ∧
    (∀ (v : Word) (s' : State), exec (.twrIen t v) s = .next s' → exec (.trdIen t) s' = .next { s' with response := .word v }) ∧
    (∀ s' : State, exec (.tevReset t) s = .next s' → exec (.trdCtrl t) s' = .next { s' with response := .word 0 } ∧
      exec (.trdIen t) s' = .next { s' with response := .word 0 }) ∧
    (∀ (i : Instr) (s' : State), exec i s = .next s' → i ≠ .tevReset t →
      ((∀ v, i ≠ .twrCtrl t v) → exec (.trdCtrl t) s' = .next { s' with response := .word T.ctrl }) ∧
      ((∀ v, i ≠ .twrIen t v) → exec (.trdIen t) s' = .next { s' with response := .word T.ien }))

/-- 40_timer_reads.md, `IF`: the read returns the cell and clears nothing; two reads agree unless a deadline fired, `IFS` or `IFC` was
written or a reset came between (a direct `IF` write between them changes nothing: D15, log entry 17); all 32 bits read back what
`IFS` set (D12, log entry 15). -/
def Obligations.TimerFlagReadClearsNothing : Prop :=
  ∀ (t : Nat) (s : State) (T : Timer), s.timers[t]? = some T →
    exec (.trdIf t) s = .next { s with response := .word T.iflag } ∧
    (∀ (i : Instr) (s' : State), exec i s = .next s' → i ≠ .tevFire t → (∀ v, i ≠ .twrIfs t v) → (∀ v, i ≠ .twrIfc t v) →
      i ≠ .tevReset t → exec (.trdIf t) s' = .next { s' with response := .word T.iflag }) ∧
    (∀ (v : Word) (s' : State), exec (.twrIfs t v) s = .next s' →
      exec (.trdIf t) s' = .next { s' with response := .word (T.iflag ||| v) })

/-- R87: a Timer read at any other offset returns 0, changes nothing and is no error. -/
def Obligations.TimerUnknownReadReturnsZero : Prop :=
  ∀ (t o : Nat) (s : State) (T : Timer), s.timers[t]? = some T →
    exec (.trdUnk t o) s = .next { s with response := .word 0 } ∧
    (o ∈ [0x08, 0x20] ∨ 0x24 < o ∨ o % 4 ≠ 0 → exec (decode (.timerRead t o)) s = .next { s with response := .word 0 })

/-- 40_timer_reads.md: the write-only registers read 0 (D14) and `TOP` reads its cell (D13), the value last written. -/
def Obligations.WriteOnlyTimerRegistersReadZeroAndTopReadsBack : Prop :=
  ∀ (t : Nat) (s : State) (T : Timer), s.timers[t]? = some T →
    (∀ i ∈ [Instr.trdCmd t, .trdIfs t, .trdIfc t], exec i s = .next { s with response := .word 0 }) ∧
    exec (.trdTop t) s = .next { s with response := .word T.top } ∧
    (∀ (v : Word) (s' : State), exec (.twrTop t v) s = .next s' → exec (.trdTop t) s' = .next { s' with response := .word v })

/-- 40_timer_reads.md: a `CNT` read returns the ticks of virtual time modulo 2^32 and nothing of the stored cell (D7, D8); a write
of `CNT` does not change it. -/
def Obligations.CountReadIsLiveVirtualTime : Prop :=
  ∀ (t : Nat) (s : State) (T : Timer), s.timers[t]? = some T →
    (∃ v : Word, exec (.trdCnt t) s = .next { s with response := .word v } ∧
      v.toNat = s.now * T.rate / s.config.vtu % 4294967296) ∧
    (∀ (v : Word) (s' : State), exec (.twrCnt t v) s = .next s' →
      exec (.trdCnt t) s' = .next { s' with response := .word (BitVec.ofNat 32 (s.now * T.rate / s.config.vtu)) })

/-- 20_memory.md section 4: every read but the UART's `RXDATAX` leaves everything as it is and may be repeated with the same
answer; the `RXDATAX` read clears `STATUS[7]` and `IF[2]`. -/
def Obligations.OnlyRxdataxReadHasASideEffect : Prop :=
  ∀ (s : State), s.Inv →
    (∀ (t o : Nat) (T : Timer), s.timers[t]? = some T →
      ∀ i ∈ [Instr.trdCtrl t, .trdCmd t, .trdIen t, .trdIf t, .trdIfs t, .trdIfc t, .trdTop t, .trdCnt t, .trdUnk t o,
          .urdCmd, .urdStatus, .urdTxdata, .urdIf, .urdIfs, .urdIfc, .urdIen, .urdUnk o],
        ∃ v, exec i s = .next { s with response := .word v } ∧
          exec i { s with response := .word v } = .next { s with response := .word v }) ∧
    (∃ s', exec .urdRxdatax s = .next s' ∧ s'.uart.status.getLsbD 7 = false ∧ s'.uart.iflag.getLsbD 2 = false)

/-! ### Timer writes -/

/-- 41_timer_writes.md, `CTRL`: the raw value and the rate `max(1, floor(BASE_CLOCK / 2^value[31:24]))`; the deadline and the rest
stay (D5, D7, D16). -/
def Obligations.ControlWriteStoresAndSetsTheRate : Prop :=
  ∀ (t : Nat) (v : Word) (s : State) (T : Timer), s.timers[t]? = some T →
    exec (.twrCtrl t v) s = .next { s with
      timers := s.timers.set t { T with ctrl := v, rate := max 1 (T.baseClock / 2 ^ (v.toNat / 2 ^ 24)) },
      response := .nothing }

/-- 41_timer_writes.md: `IEN` and `TOP` store all 32 bits and nothing else changes (D12, D16); the line then is high exactly if a
pending bit is enabled by the new mask. -/
def Obligations.EnableAndTopWritesStoreTheValue : Prop :=
  ∀ (t : Nat) (v : Word) (s : State) (T : Timer), s.timers[t]? = some T →
    exec (.twrIen t v) s = .next { s with timers := s.timers.set t { T with ien := v }, response := .nothing } ∧
    exec (.twrTop t v) s = .next { s with timers := s.timers.set t { T with top := v }, response := .nothing } ∧
    (({ T with ien := v } : Timer).irq = true ↔ ∃ k, k < 32 ∧ T.iflag.getLsbD k = true ∧ v.getLsbD k = true)

/-- 41_timer_writes.md, `CNT`: the write stores its value in the cell; the value is not what a `CNT` read returns (D8, log entry 12),
does not move with time, is not used by a start in periodic mode, and in one-shot mode is the base of the next start, however long
after (D9, log entry 12), with the expiry's direction by mode (D10, log entry 13) and its rounded division (D7, log entry 11). -/
def Obligations.CountWriteStoresOnlyTheOneShotBase : Prop :=
  ∀ (t : Nat) (v : Word) (s : State) (T : Timer), s.timers[t]? = some T →
    exec (.twrCnt t v) s = .next { s with timers := s.timers.set t { T with cnt := v }, response := .nothing } ∧
    (∀ s₁ : State, exec (.twrCnt t v) s = .next s₁ →
      (∀ s₂ : State, exec (.trdCnt t) s = .next s₂ → exec (.trdCnt t) s₁ = .next { s₁ with response := s₂.response }) ∧
      (∀ (time : Nat) (s₂ : State), exec (.envAdvance time) s₁ = .next s₂ → s₂.timers = s₁.timers) ∧
      (T.ctrl.getLsbD 4 = false → ∀ (w : Word) (s₂ s₃ : State), exec (.twrCmd t w) s = .next s₂ →
        exec (.twrCmd t w) s₁ = .next s₃ →
        s₃.timers[t]?.map (fun T' => T'.deadline) = s₂.timers[t]?.map (fun T' => T'.deadline)) ∧
      (T.ctrl.getLsbD 4 = true → ∀ (time : Nat) (s₂ s₃ : State), exec (.envAdvance time) s₁ = .next s₂ →
        exec (.twrCmd t 1) s₂ = .next s₃ → s₃.timers[t]?.map (fun T' => T'.deadline) =
          some (some (time + (if T.ctrl.toNat % 4 = 0 then 4294967295 - v.toNat else v.toNat) * s.config.vtu / T.rate))))

/-- 41_timer_writes.md, `CMD`: a start schedules the callback `Expiry` ticks from now, a stop cancels it, both end not armed (D11),
the other bits are ignored; nothing else changes. The expiry table is the spec's (D9, D10, D7). -/
def Obligations.CommandWriteStartsAndStops : Prop :=
  ∀ (t : Nat) (v : Word) (s : State) (T : Timer), s.timers[t]? = some T →
    exec (.twrCmd t v) s = .next { s with
      timers := s.timers.set t { T with
        deadline := if v.getLsbD 1 then none
          else if v.getLsbD 0 then some (s.now + expiryTicks T * s.config.vtu / T.rate) else T.deadline },
      response := .nothing }

/-- 41_timer_writes.md, `IFS`: every bit set in the value is set in `IF`, the others stay, over all 32 bits (D12); the deadline and
the rest stay. -/
def Obligations.TimerFlagSetWriteOrsTheFlags : Prop :=
  ∀ (t : Nat) (v : Word) (s : State) (T : Timer), s.timers[t]? = some T →
    ∃ f : Word, exec (.twrIfs t v) s = .next { s with timers := s.timers.set t { T with iflag := f }, response := .nothing } ∧
      (∀ k, k < 32 → f.getLsbD k = (T.iflag.getLsbD k || v.getLsbD k)) ∧
      (({ T with iflag := f } : Timer).irq = true ↔
        ∃ k, k < 32 ∧ (T.iflag.getLsbD k = true ∨ v.getLsbD k = true) ∧ T.ien.getLsbD k = true)

/-- 41_timer_writes.md, `IFC`: every bit set in the value is cleared in `IF`; in periodic mode the callback is scheduled `TOP` ticks
from now, with no other condition (D19); in one-shot mode the deadline stays. -/
def Obligations.TimerFlagClearWriteClearsAndRearms : Prop :=
  ∀ (t : Nat) (v : Word) (s : State) (T : Timer), s.timers[t]? = some T →
    ∃ f : Word, exec (.twrIfc t v) s = .next { s with
        timers := s.timers.set t { T with
          iflag := f,
          deadline := if T.ctrl.getLsbD 4 then T.deadline else some (s.now + T.top.toNat * s.config.vtu / T.rate) },
        response := .nothing } ∧
      ∀ k, k < 32 → f.getLsbD k = (T.iflag.getLsbD k && !v.getLsbD k)

/-- R101: a Timer write at any other offset changes nothing, the line included, and is no error. -/
def Obligations.TimerUnknownWriteChangesNothing : Prop :=
  ∀ (t o : Nat) (v : Word) (s : State) (T : Timer), s.timers[t]? = some T →
    exec (.twrUnk t o v) s = .next { s with response := .nothing } ∧
    (o ∈ [0x08, 0x20] ∨ 0x24 < o ∨ o % 4 ≠ 0 → exec (decode (.timerWrite t o v)) s = .next { s with response := .nothing })

/-- 20_memory.md section 4: these writes are idempotent, repeating one leaves the same state. -/
def Obligations.StoringWritesAreIdempotent : Prop :=
  ∀ (t : Nat) (v : Word) (s s' : State),
    ∀ i ∈ [Instr.twrCtrl t v, .twrIen t v, .twrTop t v, .twrCnt t v, .twrIfs t v, .uwrIen v, .uwrIfs v, .uwrIfc v],
      exec i s = .next s' → exec i s' = .next s'

/-! ### Timer events -/

/-- 42_timer_events.md, the deadline callback: when due (D18) it consumes the deadline and sets `OF` if the mode at this moment is
count-up, else `UF` (D10); no flag is cleared, nothing is re-armed, nothing else changes. -/
def Obligations.DeadlineCallbackSetsTheModeFlag : Prop :=
  ∀ (t d : Nat) (s : State) (T : Timer), s.timers[t]? = some T → T.deadline = some d → d ≤ s.now →
    exec (.tevFire t) s = .next { s with
      timers := s.timers.set t { T with
        deadline := none, iflag := T.iflag ||| (if T.ctrl.toNat % 4 = 0 then 0x00000001 else 0x00000002) },
      response := .nothing }

/-- 42_timer_events.md: virtual time moves forward to any time that no pending deadline forbids, and nothing else changes (D18). -/
def Obligations.AdvanceMovesOnlyVirtualTime : Prop :=
  ∀ (time : Nat) (s : State), s.now ≤ time → (∀ T ∈ s.timers, ∀ d, T.deadline = some d → time ≤ max d s.now) →
    exec (.envAdvance time) s = .next { s with now := time, response := .nothing }

/-- 42_timer_events.md section 2: after a stop the callback never happens until the unit is started or an `IFC` write comes, over any
run (the source: "stale callbacks must never fire after cancellation"). It rests on D11 and D19 (log entries 14 and 18). -/
def Obligations.StoppedTimerNeverFires : Prop :=
  ∀ (t : Nat) (v : Word) (s : State) (T : Timer), s.timers[t]? = some T → v.getLsbD 1 = true →
    ∃ s₁, exec (.twrCmd t v) s = .next s₁ ∧ (T.deadline = none → s₁.timers = s.timers) ∧
      ∀ (l : List Instr) (s₂ : State),
        (∀ i ∈ l, (∀ w : Word, i = .twrCmd t w → w.getLsbD 0 = false ∨ w.getLsbD 1 = true) ∧ ∀ w, i ≠ .twrIfc t w) →
        runAll l s₁ = .next s₂ → .tevFire t ∉ l ∧ s₂.timers[t]?.map (fun T' => T'.deadline) = some none

/-- The source's own test (95_test_vectors.md S2), for every mode, base, rate and parameter: start, advance by the full duration, fire.
Exactly one flag is set, the unit is idle, and the callback cannot happen again, which the model writes as a stop under the name
`fireNotEnabled` (log entry 7, the model's choice of form). It rests on D7, D9, D10 and D18 (log entries 11, 12, 13 and 20). -/
def Obligations.StartedTimerExpiresOnce : Prop :=
  ∀ (t : Nat) (v : Word) (s : State) (T : Timer), s.timers[t]? = some T → v.getLsbD 0 = true → v.getLsbD 1 = false →
    (∀ (u : Nat) (T' : Timer), s.timers[u]? = some T' → u ≠ t → T'.deadline = none) →
    ∃ s', runAll [.twrCmd t v, .envAdvance (s.now + expiryTicks T * s.config.vtu / T.rate), .tevFire t] s = .next s' ∧
      s'.timers[t]? = some { T with deadline := none, iflag := T.iflag ||| modeFlag T } ∧
      s'.now = s.now + expiryTicks T * s.config.vtu / T.rate ∧
      exec (.tevFire t) s' = .fault .fireNotEnabled

/-- The source's own test (95_test_vectors.md S4) and 42_timer_events.md section 3: after the callback the handler's `IFC` write at
time `a` arms the next period `TOP` ticks from `a` in periodic mode, and arms nothing in one-shot mode. It rests on D7, D10, D18 and D19
(log entries 11, 13, 20 and 18). -/
def Obligations.AcknowledgeMeasuresThePeriodFromItself : Prop :=
  ∀ (t d a : Nat) (v : Word) (s : State) (T : Timer), s.timers[t]? = some T → T.deadline = some d → d ≤ s.now → s.now ≤ a →
    (∀ (u : Nat) (T' : Timer), s.timers[u]? = some T' → u ≠ t → T'.deadline = none) →
    ∃ s', runAll [.tevFire t, .envAdvance a, .twrIfc t v] s = .next s' ∧ s'.now = a ∧
      s'.timers[t]? = some { T with
        iflag := (T.iflag ||| modeFlag T) &&& ~~~v,
        deadline := if T.ctrl.getLsbD 4 then none else some (a + T.top.toNat * s.config.vtu / T.rate) }

/-- 70_reset_and_hazards.md: in periodic mode with `TOP = 0` an `IFC` write leaves the callback due at once, time cannot move until it
happens, and it sets the flag of the mode again. That time cannot move the model writes as a stop under the name `advanceNotEnabled`
(log entry 7, the model's choice of form). It rests on D10, D18 and D19 (log entries 13, 20 and 18). -/
def Obligations.ZeroTopAcknowledgeFiresAtOnce : Prop :=
  ∀ (t : Nat) (v : Word) (s : State) (T : Timer), s.timers[t]? = some T → T.ctrl.getLsbD 4 = false → T.top = 0 →
    ∃ s₁, exec (.twrIfc t v) s = .next s₁ ∧
      (∀ time, s.now < time → exec (.envAdvance time) s₁ = .fault .advanceNotEnabled) ∧
      ∃ s₂, exec (.tevFire t) s₁ = .next s₂ ∧
        s₂.timers[t]? = some { T with iflag := (T.iflag &&& ~~~v) ||| modeFlag T, deadline := none }

/-- 70_reset_and_hazards.md, Timer reset: all five cells 0, no deadline, the rate of the base clock (D6), the line low (D17); `now`, the
parameters and the other units stay. -/
def Obligations.TimerResetClearsTheUnit : Prop :=
  ∀ (t : Nat) (s : State) (T : Timer), s.timers[t]? = some T →
    exec (.tevReset t) s = .next { s with
      timers := s.timers.set t { baseClock := T.baseClock, ctrl := 0, ien := 0, iflag := 0, top := 0, cnt := 0,
                                 rate := max 1 T.baseClock, deadline := none },
      response := .nothing } ∧
    (∀ s', exec (.tevReset t) s = .next s' → s'.timers[t]?.map Timer.irq = some false ∧
      (s.Inv → s'.timers[t]?.map (fun T' => T'.rate) = some T.baseClock))

/-- 70_reset_and_hazards.md: reset twice is reset once, for a Timer unit and for the UART. -/
def Obligations.ResetIsIdempotent : Prop :=
  (∀ (t : Nat) (s s' : State), exec (.tevReset t) s = .next s' → exec (.tevReset t) s' = .next s') ∧
  (∀ s s' : State, exec .uevReset s = .next s' → exec .uevReset s' = .next s')

/-! ### UART reads -/

/-- 43_uart_reads.md, `RXDATAX`: the answer is the stored item; `STATUS[7]` and `IF[2]` fall; the data register stays (D26, D27), and a
second read answers the same. -/
def Obligations.ReceiveReadReleasesTheSlot : Prop :=
  ∀ s : State,
    exec .urdRxdatax s = .next { s with
      uart := { s.uart with status := s.uart.status &&& ~~~(0x00000080 : Word), iflag := s.uart.iflag &&& ~~~(0x00000004 : Word) },
      response := .word s.uart.rxdatax } ∧
    ∀ s', exec .urdRxdatax s = .next s' → exec .urdRxdatax s' = .next s'

/-- R128 and R129: `IF` and `IEN` read their cells and change nothing; `IF[2]` equals `STATUS[7]` and the other bits are what `IFS` and
`IFC` left; `IEN` reads back all 32 bits as last written. -/
def Obligations.UartFlagAndEnableReadTheCells : Prop :=
  (∀ s : State, exec .urdIf s = .next { s with response := .word s.uart.iflag } ∧
    exec .urdIen s = .next { s with response := .word s.uart.ien }) ∧
  (∀ s : State, s.Inv → s.uart.iflag.getLsbD 2 = s.uart.status.getLsbD 7) ∧
  (∀ (i : Instr) (s s' : State) (k : Nat), exec i s = .next s' → k ≠ 2 → (∀ v, i ≠ .uwrIfs v) → (∀ v, i ≠ .uwrIfc v) →
    i ≠ .uevReset → s'.uart.iflag.getLsbD k = s.uart.iflag.getLsbD k) ∧
  (∀ (v : Word) (s s' : State), exec (.uwrIen v) s = .next s' → exec .urdIen s' = .next { s' with response := .word v }) ∧
  (∀ (i : Instr) (s s' : State), exec i s = .next s' → (∀ v, i ≠ .uwrIen v) → i ≠ .uevReset →
    exec .urdIen s' = .next { s' with response := .word s.uart.ien })

/-- 43_uart_reads.md, `STATUS`: the read returns the cell, which in any state the machine can be in is 0x40 or 0xC0. -/
def Obligations.StatusReadsReadyWithOrWithoutData : Prop :=
  (∀ s : State, exec .urdStatus s = .next { s with response := .word s.uart.status }) ∧
  (∀ s : State, s.Inv → exec .urdStatus s = .next { s with response := .word 0x00000040 } ∨
    exec .urdStatus s = .next { s with response := .word 0x000000C0 })

/-- 43_uart_reads.md: a read at an unknown offset, of `CMD` or of a write-only register (D14) runs the update and returns 0; where the
invariant holds nothing changes. -/
def Obligations.UnmatchedUartReadsReturnZero : Prop :=
  ∀ (o : Nat) (s : State), ∀ i ∈ [Instr.urdCmd, .urdTxdata, .urdIfs, .urdIfc, .urdUnk o],
    exec i s = .next { s with uart := { s.uart with iflag := netFlags s.uart.status s.uart.iflag }, response := .word 0 } ∧
    (s.Inv → exec i s = .next { s with response := .word 0 })

/-! ### UART writes -/

/-- R140: no UART write fails or changes `STATUS` or `RXDATAX`; each leaves `IF[2] = STATUS[7]`; a `TXDATA` write sends its low byte if
a transport is attached, `IFS` and `IFC` set and clear bits, `IEN` stores the mask. -/
def Obligations.UartWritesNeverFailOrTouchReceiveCells : Prop :=
  ∀ (o : Nat) (v : Word) (s : State),
    (∀ i ∈ [Instr.uwrCmd v, .uwrStatus v, .uwrRxdatax v, .uwrTxdata v, .uwrIf v, .uwrIfs v, .uwrIfc v, .uwrIen v, .uwrUnk o v],
      ∃ s', exec i s = .next s' ∧ s'.uart.status = s.uart.status ∧ s'.uart.rxdatax = s.uart.rxdatax ∧
        s'.uart.iflag.getLsbD 2 = s.uart.status.getLsbD 7 ∧
        (s'.uart.irq = true ↔ s'.uart.iflag &&& s'.uart.ien ≠ 0) ∧
        s'.timers = s.timers ∧ s'.now = s.now ∧ s'.config = s.config ∧ s'.pending = s.pending ∧ s'.response = .nothing) ∧
    (∀ s', exec (.uwrTxdata v) s = .next s' →
      s'.tx = if s.config.transportAttached then s.tx ++ [BitVec.ofNat 8 (v.toNat % 256)] else s.tx) ∧
    (∀ s', exec (.uwrIfs v) s = .next s' → ∀ k, k < 32 → k ≠ 2 →
      s'.uart.iflag.getLsbD k = (s.uart.iflag.getLsbD k || v.getLsbD k)) ∧
    (∀ s', exec (.uwrIfc v) s = .next s' → ∀ k, k < 32 → k ≠ 2 →
      s'.uart.iflag.getLsbD k = (s.uart.iflag.getLsbD k && !v.getLsbD k)) ∧
    (∀ s', exec (.uwrIen v) s = .next s' → s'.uart.ien = v)

/-- 44_uart_writes.md, `IEN`: all 32 bits stored (D12), then the update step; in any state the machine can be in only `IEN` changes. -/
def Obligations.UartEnableWriteStoresTheMask : Prop :=
  ∀ (v : Word) (s : State),
    exec (.uwrIen v) s = .next { s with
      uart := { s.uart with ien := v, iflag := netFlags s.uart.status s.uart.iflag }, response := .nothing } ∧
    (s.Inv → exec (.uwrIen v) s = .next { s with uart := { s.uart with ien := v }, response := .nothing })

/-- 44_uart_writes.md, `IFS`: `IF <- ((IF | value) & ~0x4) | (STATUS[7] << 2)` (D12). -/
def Obligations.UartFlagSetWriteKeepsTheReceiveFlag : Prop :=
  ∀ (v : Word) (s : State),
    exec (.uwrIfs v) s = .next { s with
      uart := { s.uart with iflag := netFlags s.uart.status (s.uart.iflag ||| v) }, response := .nothing }

/-- R143: `IFC`: `IF <- ((IF & ~value) & ~0x4) | (STATUS[7] << 2)`, and no other effect; bit 2 comes back while an item waits; an `RXDATAX`
read acknowledges it, no other operation but reset does, and `IEN` masks it. -/
def Obligations.UartFlagClearWriteKeepsTheReceiveFlag : Prop :=
  ∀ (v : Word) (s : State),
    exec (.uwrIfc v) s = .next { s with
      uart := { s.uart with iflag := netFlags s.uart.status (s.uart.iflag &&& ~~~v) }, response := .nothing } ∧
    (s.uart.status.getLsbD 7 = true → ∀ s', exec (.uwrIfc v) s = .next s' → s'.uart.iflag.getLsbD 2 = true) ∧
    (∀ s', exec .urdRxdatax s = .next s' → s'.uart.iflag.getLsbD 2 = false) ∧
    (∀ (i : Instr) (s' : State), s.uart.status.getLsbD 7 = true → s.uart.iflag.getLsbD 2 = true → exec i s = .next s' →
      i ≠ .urdRxdatax → i ≠ .uevReset → s'.uart.iflag.getLsbD 2 = true) ∧
    (∀ s', exec (.uwrIen 0) s = .next s' → s'.uart.irq = false)

/-- 44_uart_writes.md, `TXDATA`: exactly the low byte is sent, at once, if a transport is attached, and dropped otherwise; no register
changes beyond the update step (D28). -/
def Obligations.TransmitWriteSendsTheLowByte : Prop :=
  ∀ (v : Word) (s : State),
    exec (.uwrTxdata v) s = .next { s with
      uart := { s.uart with iflag := netFlags s.uart.status s.uart.iflag },
      tx := if s.config.transportAttached then s.tx ++ [BitVec.ofNat 8 (v.toNat % 256)] else s.tx,
      response := .nothing } ∧
    (s.Inv → ∀ s', exec (.uwrTxdata v) s = .next s' → s'.uart = s.uart)

/-- 41_timer_writes.md and 44_uart_writes.md: a direct write of a Timer's `IF`, and of the UART's `IF`, `CMD`, `STATUS` or `RXDATAX`, is
ignored (D15): on the UART the update step runs, and where the invariant holds nothing changes. -/
def Obligations.IgnoredWritesChangeNothing : Prop :=
  (∀ (t : Nat) (v : Word) (s : State) (T : Timer), s.timers[t]? = some T →
    exec (.twrIf t v) s = .next { s with response := .nothing }) ∧
  (∀ (v : Word) (s : State), ∀ i ∈ [Instr.uwrIf v, .uwrCmd v, .uwrStatus v, .uwrRxdatax v],
    exec i s = .next { s with uart := { s.uart with iflag := netFlags s.uart.status s.uart.iflag }, response := .nothing } ∧
    (s.Inv → exec i s = .next { s with response := .nothing }))

/-- R147: a UART write at any other offset runs the update step, which changes nothing where the invariant holds. -/
def Obligations.UartUnknownWriteChangesNothing : Prop :=
  ∀ (o : Nat) (v : Word) (s : State),
    exec (.uwrUnk o v) s = .next { s with
      uart := { s.uart with iflag := netFlags s.uart.status s.uart.iflag }, response := .nothing } ∧
    (s.Inv → exec (.uwrUnk o v) s = .next { s with response := .nothing })

/-! ### UART events -/

/-- R156: the can-receive query answers `STATUS[7] = 0` and changes no state: true after reset, false from a byte or a break until the
next `RXDATAX` read or reset. -/
def Obligations.CanReceiveAnswersWhetherTheSlotIsFree : Prop :=
  (∀ s : State, s.config.transportAttached = true →
    exec .uevCanrx s = .next { s with response := .bool (!s.uart.status.getLsbD 7) }) ∧
  (∀ (i : Instr) (s s' : State), s.config.transportAttached = true → exec i s = .next s' →
    (i = .uevReset ∨ i = .urdRxdatax → exec .uevCanrx s' = .next { s' with response := .bool true }) ∧
    ((∃ b, i = .uevRx b) ∨ i = .uevBreak → exec .uevCanrx s' = .next { s' with response := .bool false }) ∧
    (i ≠ .uevReset → i ≠ .urdRxdatax → s.uart.status.getLsbD 7 = true →
      exec .uevCanrx s' = .next { s' with response := .bool false }))

/-- 45_uart_events.md, a byte: with nothing waiting (D25) the whole of `RXDATAX` is replaced by the byte (D23), `STATUS[7]` and `IF[2]` are
set, and nothing else changes. -/
def Obligations.ReceivedByteFillsTheSlot : Prop :=
  ∀ (b : Byte) (s : State), s.config.transportAttached = true → s.uart.status.getLsbD 7 = false →
    exec (.uevRx b) s = .next { s with
      uart := { s.uart with rxdatax := BitVec.ofNat 32 b.toNat, status := s.uart.status ||| 0x00000080,
                            iflag := s.uart.iflag ||| 0x00000004 },
      response := .nothing }

/-- 45_uart_events.md, a break: not gated (D24); `RXDATAX` becomes the framing-error mark with the sentinel byte, `STATUS[7]` and `IF[2]` are
set, and nothing else changes; with the sentinel 0x00 it is 0x00008000. -/
def Obligations.BreakStoresTheFramingError : Prop :=
  ∀ s : State, s.config.transportAttached = true →
    exec .uevBreak s = .next { s with
      uart := { s.uart with rxdatax := 0x00008000 ||| BitVec.ofNat 32 s.config.breakByte.toNat,
                            status := s.uart.status ||| 0x00000080, iflag := s.uart.iflag ||| 0x00000004 },
      response := .nothing } ∧
    (s.config.breakByte = 0x00 → ∀ s', exec .uevBreak s = .next s' → s'.uart.rxdatax = 0x00008000)

/-- 45_uart_events.md, no transport: the byte, the break and the query never happen, which the model writes as a stop under the name
`transportNotAttached` (log entry 7, the model's choice of form); nothing is sent, and every other operation does what it does with a
transport attached. -/
def Obligations.NoTransportMeansNoTraffic : Prop :=
  ∀ s : State, s.config.transportAttached = false →
    (∀ b : Byte, exec (.uevRx b) s = .fault .transportNotAttached) ∧
    exec .uevBreak s = .fault .transportNotAttached ∧ exec .uevCanrx s = .fault .transportNotAttached ∧
    (∀ (i : Instr) (s' : State), exec i s = .next s' → s'.tx = s.tx ∧
      ∃ s'', exec i { s with config := { s.config with transportAttached := true } } = .next s'' ∧
        s''.uart = s'.uart ∧ s''.timers = s'.timers ∧ s''.now = s'.now ∧ s''.response = s'.response)

/-- R201: UART reset zeroes all registers, then sets `TXBL`; the line is low, the slot is free, the bytes sent stay sent. -/
def Obligations.UartResetLeavesReadyAndEmpty : Prop :=
  ∀ s : State,
    exec .uevReset s = .next { s with
      uart := { status := 0x00000040, rxdatax := 0, iflag := 0, ien := 0 }, response := .nothing } ∧
    (∀ s', exec .uevReset s = .next s' → s'.uart.irq = false ∧ s'.tx = s.tx ∧
      (s.config.transportAttached = true → exec .uevCanrx s' = .next { s' with response := .bool true }))
end

