-- ==== Sys2Proof/Laws/Decode.lean ====
section
/-! SUPPORT. The fields of a packed record are the fields that were packed (log entry 4). -/

namespace Sys2Proof

variable (selector unit offset operand : Nat) (hs : selector < 2 ^ 8) (hu : unit < 2 ^ 24) (ho : offset < 2 ^ 32)

include hs hu ho

omit hu in
theorem recordSelector_packRecord : recordSelector (packRecord selector unit offset operand) = selector := by
  simp only [recordSelector, packRecord]; omega

theorem recordUnit_packRecord : recordUnit (packRecord selector unit offset operand) = unit := by
  simp only [recordUnit, packRecord]; omega

theorem recordOperand_packRecord : recordOperand (packRecord selector unit offset operand) = operand := by
  simp only [recordOperand, packRecord]; omega

omit hs hu in
theorem recordOffset_packRecord : recordOffset (packRecord selector unit offset operand) = offset := by
  simp only [recordOffset, packRecord]; omega

end Sys2Proof
end

