-- ==== Sys2Proof/Laws/State.lean ====
section
/-! SUPPORT. One lemma per field per update of the state, so that no later proof unfolds a record update. -/

namespace Sys2Proof.Machine

variable (s : State) (t : Nat) (T : Timer) (U : Uart) (r : Response)

@[simp] theorem State.respond_config : (s.respond r).config = s.config := rfl
@[simp] theorem State.respond_now : (s.respond r).now = s.now := rfl
@[simp] theorem State.respond_timers : (s.respond r).timers = s.timers := rfl
@[simp] theorem State.respond_uart : (s.respond r).uart = s.uart := rfl
@[simp] theorem State.respond_tx : (s.respond r).tx = s.tx := rfl
@[simp] theorem State.respond_pending : (s.respond r).pending = s.pending := rfl
@[simp] theorem State.respond_response : (s.respond r).response = r := rfl

@[simp] theorem State.setTimer_config : (s.setTimer t T).config = s.config := rfl
@[simp] theorem State.setTimer_now : (s.setTimer t T).now = s.now := rfl
@[simp] theorem State.setTimer_timers : (s.setTimer t T).timers = s.timers.set t T := rfl
@[simp] theorem State.setTimer_uart : (s.setTimer t T).uart = s.uart := rfl
@[simp] theorem State.setTimer_tx : (s.setTimer t T).tx = s.tx := rfl
@[simp] theorem State.setTimer_pending : (s.setTimer t T).pending = s.pending := rfl
@[simp] theorem State.setTimer_response : (s.setTimer t T).response = s.response := rfl

@[simp] theorem State.setUart_config : (s.setUart U).config = s.config := rfl
@[simp] theorem State.setUart_now : (s.setUart U).now = s.now := rfl
@[simp] theorem State.setUart_timers : (s.setUart U).timers = s.timers := rfl
@[simp] theorem State.setUart_uart : (s.setUart U).uart = U := rfl
@[simp] theorem State.setUart_tx : (s.setUart U).tx = s.tx := rfl
@[simp] theorem State.setUart_pending : (s.setUart U).pending = s.pending := rfl
@[simp] theorem State.setUart_response : (s.setUart U).response = s.response := rfl

@[simp] theorem Timer.schedule_deadline (d : Nat) : (T.schedule d).deadline = some d := rfl
@[simp] theorem Timer.schedule_ctrl (d : Nat) : (T.schedule d).ctrl = T.ctrl := rfl
@[simp] theorem Timer.schedule_rate (d : Nat) : (T.schedule d).rate = T.rate := rfl
@[simp] theorem Timer.schedule_baseClock (d : Nat) : (T.schedule d).baseClock = T.baseClock := rfl
@[simp] theorem Timer.cancel_deadline : T.cancel.deadline = none := rfl
@[simp] theorem Timer.cancel_ctrl : T.cancel.ctrl = T.ctrl := rfl
@[simp] theorem Timer.cancel_rate : T.cancel.rate = T.rate := rfl
@[simp] theorem Timer.cancel_baseClock : T.cancel.baseClock = T.baseClock := rfl

@[simp] theorem Uart.update_status : U.update.status = U.status := rfl
@[simp] theorem Uart.update_rxdatax : U.update.rxdatax = U.rxdatax := rfl
@[simp] theorem Uart.update_ien : U.update.ien = U.ien := rfl

@[simp] theorem State.send_config (b : Byte) : (s.send b).config = s.config := by unfold State.send; split <;> rfl
@[simp] theorem State.send_now (b : Byte) : (s.send b).now = s.now := by unfold State.send; split <;> rfl
@[simp] theorem State.send_timers (b : Byte) : (s.send b).timers = s.timers := by unfold State.send; split <;> rfl
@[simp] theorem State.send_uart (b : Byte) : (s.send b).uart = s.uart := by unfold State.send; split <;> rfl
@[simp] theorem State.send_pending (b : Byte) : (s.send b).pending = s.pending := by unfold State.send; split <;> rfl
theorem State.send_tx (b : Byte) :
    (s.send b).tx = if s.config.transportAttached then s.tx ++ [b] else s.tx := by unfold State.send; split <;> rfl

end Sys2Proof.Machine
end

