-- ==== Sys2Proof/Laws/Ops.lean ====
section
/-! SUPPORT. What each shared operation can do, said once; the provers cite these instead of unfolding the operations. -/

namespace Sys2Proof.Machine

/-! ### Fields and flags in the spec's own arithmetic -/

theorem prescaler_eq (v : Word) : prescaler v = v.toNat / 2 ^ 24 := by
  have hv := v.isLt
  rw [prescaler, BitVec.toNat_and, BitVec.toNat_ushiftRight, Nat.shiftRight_eq_div_pow,
    show (0xFF : Word).toNat = 2 ^ 8 - 1 from rfl, Nat.and_two_pow_sub_one_eq_mod]
  omega

theorem countUp_iff (v : Word) : countUp v = true ↔ v.toNat % 4 = 0 := by
  have h : (v &&& 0x3).toNat = v.toNat % 4 := by
    rw [BitVec.toNat_and]; exact Nat.and_two_pow_sub_one_eq_mod v.toNat 2
  rw [countUp, beq_iff_eq, ← BitVec.toNat_inj, h]; rfl

theorem countUp_eq (v : Word) : countUp v = decide (v.toNat % 4 = 0) := by
  rw [Bool.eq_iff_iff, countUp_iff, decide_eq_true_iff]

theorem rateOf_eq (clock : Nat) (v : Word) : rateOf clock v = max 1 (clock / 2 ^ (v.toNat / 2 ^ 24)) := by
  rw [rateOf, prescaler_eq]

theorem rateOf_zero (clock : Nat) : rateOf clock 0 = max 1 clock := by simp [rateOf_eq]

theorem expiry_toNat (T : Timer) : T.expiry.toNat = expiryTicks T := by
  have h (b : Word) : (maxU32 - b).toNat = 4294967295 - b.toNat := by
    have := b.isLt
    rw [BitVec.toNat_sub, show maxU32.toNat = 4294967295 from rfl]; omega
  unfold Timer.expiry expiryTicks oneShot
  simp only [countUp_eq, decide_eq_true_eq]
  split <;> split <;> simp [h]

theorem expiryFlag_eq (T : Timer) : expiryFlag T.ctrl = modeFlag T := by
  simp only [expiryFlag, modeFlag, countUp_eq, decide_eq_true_eq]; rfl

theorem txByte_eq (v : Word) : txByte v = BitVec.ofNat 8 (v.toNat % 256) := by
  apply BitVec.eq_of_toNat_eq; simp [txByte]

theorem zext32_eq (b : Byte) : zext32 b = BitVec.ofNat 32 b.toNat := by
  apply BitVec.eq_of_toNat_eq; simp [zext32]

/-- The level of a line, bit by bit. -/
theorem lineLevel_iff (f e : Word) :
    lineLevel f e = true ↔ ∃ k, k < 32 ∧ f.getLsbD k = true ∧ e.getLsbD k = true := by
  rw [lineLevel, bne_iff_ne, ne_eq, BitVec.eq_of_getLsbD_eq_iff]
  simp [BitVec.getLsbD_and]

@[simp] theorem getLsbD_setBits (f m : Word) (k : Nat) : (setBits f m).getLsbD k = (f.getLsbD k || m.getLsbD k) :=
  BitVec.getLsbD_or

@[simp] theorem getLsbD_clearBits (f m : Word) (k : Nat) : (clearBits f m).getLsbD k = (f.getLsbD k && !m.getLsbD k) := by
  by_cases h : k < 32
  · simp only [clearBits, BitVec.getLsbD_and, BitVec.getLsbD_not, h, decide_true, Bool.true_and]
  · simp only [clearBits, BitVec.getLsbD_and, BitVec.getLsbD_of_ge f k (by omega), Bool.false_and]

/-! ### The UART's update step -/

/-- A constant with the one bit `n` set. -/
theorem getLsbD_bit (n k : Nat) (hk : k < 32) : (BitVec.twoPow 32 n).getLsbD k = decide (k = n) := by
  rw [BitVec.getLsbD_twoPow, Bool.eq_iff_iff, Bool.and_eq_true, decide_eq_true_iff, decide_eq_true_iff, decide_eq_true_iff]
  omega

theorem getLsbD_netFlags (status flags : Word) (k : Nat) (hk : k < 32) :
    (netFlags status flags).getLsbD k = if k = 2 then status.getLsbD 7 else flags.getLsbD k := by
  have h4 : (0x4 : Word).getLsbD k = decide (k = 2) := getLsbD_bit 2 k hk
  rw [netFlags, BitVec.getLsbD_or, BitVec.getLsbD_and, BitVec.getLsbD_not, h4, BitVec.getLsbD_shiftLeft, BitVec.getLsbD_and,
    BitVec.getLsbD_ushiftRight]
  by_cases h2 : k = 2
  · subst h2; simp
  · have h1 : (0x1 : Word).getLsbD (k - 2) = decide (k - 2 = 0) := getLsbD_bit 0 (k - 2) (by omega)
    rw [h1]
    rcases Nat.lt_or_ge k 2 with h | h
    · simp [hk, h, h2]
    · have : k - 2 ≠ 0 := by omega
      simp only [hk, h2, this, decide_true, decide_false, Bool.not_false, Bool.and_true, Bool.and_false, Bool.or_false, if_false]

theorem netFlags_eq (status flags : Word) : netFlags status flags =
    if status.getLsbD 7 then setBits flags rxDataValidFlag else clearBits flags rxDataValidFlag := by
  apply BitVec.eq_of_getLsbD_eq
  intro k hk
  have h4 : rxDataValidFlag.getLsbD k = decide (k = 2) := getLsbD_bit 2 k hk
  rw [getLsbD_netFlags _ _ _ hk, apply_ite (fun f : Word => f.getLsbD k), getLsbD_setBits, getLsbD_clearBits, h4]
  by_cases h2 : k = 2 <;> cases status.getLsbD 7 <;> simp only [h2, decide_true, decide_false, if_true, if_false, Bool.or_true,
    Bool.or_false, Bool.not_true, Bool.not_false, Bool.and_true, Bool.and_false, Bool.false_eq_true]

theorem Uart.update_eq (U : Uart) : U.update = { U with iflag := netFlags U.status U.iflag } := by
  rw [netFlags_eq]; rfl

/-- The update step sets `IF[2]` to `STATUS[7]` and no other bit. -/
theorem Uart.getLsbD_update (U : Uart) (k : Nat) :
    U.update.iflag.getLsbD k = if k = 2 then U.status.getLsbD 7 else U.iflag.getLsbD k := by
  rw [Uart.update_eq]
  by_cases hk : k < 32
  · exact getLsbD_netFlags _ _ _ hk
  · rw [if_neg (by omega), BitVec.getLsbD_of_ge _ k (by omega), BitVec.getLsbD_of_ge _ k (by omega)]

/-- Where the invariant R30 holds the update step changes nothing (R155). -/
theorem Uart.update_of_derived (U : Uart) (h : U.iflag.getLsbD 2 = U.status.getLsbD 7) : U.update = U := by
  have : U.update.iflag = U.iflag := by
    apply BitVec.eq_of_getLsbD_eq
    intro i _
    rw [Uart.getLsbD_update]; split
    · subst_vars; exact h.symm
    · rfl
  cases U; simp_all [Uart.update]

theorem Uart.update_update (U : Uart) : U.update.update = U.update :=
  Uart.update_of_derived _ (by rw [Uart.getLsbD_update]; rfl)

/-! ### Timer units -/

theorem State.setTimer_self (s : State) (t : Nat) (T : Timer) (h : s.timers[t]? = some T) : s.setTimer t T = s := by
  have : s.timers.set t T = s.timers := by
    apply List.ext_getElem?
    intro u
    rw [List.getElem?_set]
    by_cases e : t = u
    · subst e
      have hl : t < s.timers.length := (List.getElem?_eq_some_iff.mp h).1
      rw [if_pos rfl, if_pos hl, h]
    · rw [if_neg e]
  cases s; simp_all [State.setTimer]

theorem getElem?_set_unit (l : List Timer) (t : Nat) (T T' : Timer) (h : l[t]? = some T) : (l.set t T')[t]? = some T' := by
  have hl : t < l.length := (List.getElem?_eq_some_iff.mp h).1
  rw [List.getElem?_set_self hl]

/-- A Timer read completes exactly on a unit that exists, and then only answers. -/
theorem readTimer_eq_next (t : Nat) (f : Timer → Word) (s s' : State) :
    readTimer t f s = .next s' ↔ ∃ T, s.timers[t]? = some T ∧ s' = s.respond (.word (f T)) := by
  unfold readTimer
  cases h : s.timers[t]? <;> simp [eq_comm]

/-- A Timer transition completes exactly on a unit that exists, and then changes that unit alone. -/
theorem updateTimer_eq_next (t : Nat) (f : Timer → Timer) (s s' : State) :
    updateTimer t f s = .next s' ↔ ∃ T, s.timers[t]? = some T ∧ s' = (s.setTimer t (f T)).respond .nothing := by
  unfold updateTimer
  cases h : s.timers[t]? <;> simp [eq_comm]

theorem readTimer_of (t : Nat) (f : Timer → Word) (s : State) (T : Timer) (h : s.timers[t]? = some T) :
    readTimer t f s = .next (s.respond (.word (f T))) := by simp [readTimer, h]

theorem updateTimer_of (t : Nat) (f : Timer → Timer) (s : State) (T : Timer) (h : s.timers[t]? = some T) :
    updateTimer t f s = .next ((s.setTimer t (f T)).respond .nothing) := by simp [updateTimer, h]

theorem Timer.due_iff (now : Nat) (T : Timer) : T.due now = true ↔ ∃ d, T.deadline = some d ∧ d ≤ now := by
  unfold Timer.due; cases T.deadline <;> simp

theorem Timer.admits_iff (now time : Nat) (T : Timer) :
    T.admits now time = true ↔ ∀ d, T.deadline = some d → time ≤ max d now := by
  unfold Timer.admits; cases T.deadline <;> simp

/-- The callback happens exactly on a unit that is due. -/
theorem execTevFire_eq_next (t : Nat) (s s' : State) : execTevFire t s = .next s' ↔
    ∃ T d, s.timers[t]? = some T ∧ T.deadline = some d ∧ d ≤ s.now ∧ s' = (s.setTimer t T.expire).respond .nothing := by
  unfold execTevFire
  cases h : s.timers[t]? with
  | none => simp
  | some T =>
    by_cases hd : T.due s.now = true
    · obtain ⟨d, e, le⟩ := (Timer.due_iff _ _).mp hd
      simp [hd, updateTimer_of t _ s T h, e, le, eq_comm]
    · have : ¬∃ d, T.deadline = some d ∧ d ≤ s.now := fun h' => hd ((Timer.due_iff _ _).mpr h')
      simp only [hd]
      simp only [not_exists, not_and] at this
      simp; intro d e le; exact absurd le (this d e)

/-- Time moves exactly where no unit forbids it, and then nothing else changes. -/
theorem execEnvAdvance_eq_next (time : Nat) (s s' : State) : execEnvAdvance time s = .next s' ↔
    s.now ≤ time ∧ (∀ T ∈ s.timers, ∀ d, T.deadline = some d → time ≤ max d s.now) ∧
      s' = { s with now := time, response := .nothing } := by
  have h : s.timers.all (Timer.admits s.now time) = true ↔ ∀ T ∈ s.timers, ∀ d, T.deadline = some d → time ≤ max d s.now := by
    simp only [List.all_eq_true, Timer.admits_iff]
  rw [← h, ← and_assoc]
  unfold execEnvAdvance
  split
  · rename_i hc; simp only [Host.Outcome.next.injEq]; exact ⟨fun e => ⟨hc, e.symm⟩, fun e => e.2.symm⟩
  · rename_i hc; simp only [reduceCtorEq, false_iff]; exact fun e => hc e.1

/-- A transport event happens exactly with a transport attached. -/
theorem transportEvent_eq_next (f : State → Result) (s s' : State) :
    transportEvent f s = .next s' ↔ s.config.transportAttached = true ∧ f s = .next s' := by
  unfold transportEvent; split <;> simp_all

/-- A byte arrives exactly with a transport attached and nothing waiting. -/
theorem execUevRx_eq_next (b : Byte) (s s' : State) : execUevRx b s = .next s' ↔
    s.config.transportAttached = true ∧ s.uart.status.getLsbD 7 = false ∧
      s' = (s.setUart (s.uart.receive (zext32 b)).update).respond .nothing := by
  unfold execUevRx Uart.hasData
  rw [transportEvent_eq_next]
  cases s.uart.status.getLsbD 7
  · simp only [Bool.false_eq_true, if_false, updateUart, Host.Outcome.next.injEq, true_and]
    exact and_congr_right fun _ => eq_comm
  · simp

theorem State.takeRequest_cons (s : State) (r : Request) (rest : List Request) (h : s.pending = r :: rest) :
    s.takeRequest = some (r, { s with pending := rest }) := by simp [State.takeRequest, h]

theorem State.takeRequest_nil (s : State) (h : s.pending = []) : s.takeRequest = none := by simp [State.takeRequest, h]

/-- What a step that completes did. -/
theorem step_eq_next (s s' : State) : step s = .next s' ↔
    ∃ r rest, s.pending = r :: rest ∧ exec (decode r) { s with pending := rest } = .next s' := by
  unfold step State.takeRequest
  cases h : s.pending <;> simp

end Sys2Proof.Machine
end

