-- ==== Sys2Proof/Laws/Meanings.lean ====
section
/-! SUPPORT. What the changes behind the meanings come to, in the spec's own arithmetic, and the induction over a run, packaged once. -/

namespace Sys2Proof.Machine

theorem getElem?_set_map (l : List Timer) (t u : Nat) (T : Timer) :
    (l.set t T)[u]? = if t = u then l[u]?.map (fun _ => T) else l[u]? := by
  rw [List.getElem?_set]
  split
  · subst_vars
    split
    · rename_i h; simp [h]
    · rw [List.getElem?_eq_none (by omega)]; rfl
  · rfl

/-- R93: start, then stop. -/
theorem Timer.command_eq (T : Timer) (start stop : Bool) (vtu now : Nat) : (T.startIf start vtu now).stopIf stop =
    { T with deadline := if stop then none else if start then some (now + expiryTicks T * vtu / T.rate) else T.deadline } := by
  cases start <;> cases stop <;> simp [Timer.startIf, Timer.stopIf, Timer.arm, Timer.cancel, Timer.schedule, ticksToTime, expiry_toNat]

/-- R99: the re-arm of periodic mode. -/
theorem Timer.rearm_eq (T : Timer) (vtu now : Nat) : T.rearm vtu now =
    { T with deadline := if T.ctrl.getLsbD 4 then T.deadline else some (now + T.top.toNat * vtu / T.rate) } := by
  unfold Timer.rearm oneShot
  cases T.ctrl.getLsbD 4 <;> rfl

/-- R114: the callback. -/
theorem Timer.expire_eq (T : Timer) : T.expire = { T with deadline := none, iflag := T.iflag ||| modeFlag T } := by
  rw [Timer.expire, expiryFlag_eq]; rfl

/-- R126: what an `RXDATAX` read leaves. -/
theorem Uart.release_update (U : Uart) : U.release.update =
    { U with status := clearBits U.status rxDataValid, iflag := clearBits U.iflag rxDataValidFlag } := by
  have h : U.release.hasData = false := by
    show (clearBits U.status rxDataValid).getLsbD 7 = false
    rw [getLsbD_clearBits]; simp [rxDataValid]
  simp only [Uart.update, h, Bool.false_eq_true, if_false]; rfl

/-- R157, R158: what an arrival leaves. -/
theorem Uart.receive_update (U : Uart) (item : Word) : (U.receive item).update =
    { U with rxdatax := item, status := setBits U.status rxDataValid, iflag := setBits U.iflag rxDataValidFlag } := by
  have h : (U.receive item).hasData = true := by
    show (setBits U.status rxDataValid).getLsbD 7 = true
    rw [getLsbD_setBits]; simp [rxDataValid]
  simp only [Uart.update, h, if_true]; rfl

/-- R201: what reset leaves, whatever was before. -/
theorem Uart.zeroed_update (U : Uart) : U.zeroed.update = Uart.initial := by
  have h : U.zeroed = Uart.initial := by simp [Uart.zeroed, Uart.initial, setBits, txBufferLevel]
  rw [h]; decide

/-- A run of at least one operation that completes. -/
theorem runAll_cons_eq_next (i : Instr) (l : List Instr) (s s' : State) :
    runAll (i :: l) s = .next s' ↔ ∃ s₁, exec i s = .next s₁ ∧ runAll l s₁ = .next s' := by
  simp only [runAll]
  cases exec i s <;> simp

/-- A reflexive and transitive relation that every admitted operation keeps is kept by every run of admitted operations. -/
theorem runAll_induct (P : State → State → Prop) (Q : Instr → Prop) (refl : ∀ s, P s s)
    (trans : ∀ a b c, P a b → P b c → P a c) (one : ∀ i s s', Q i → exec i s = .next s' → P s s') :
    ∀ (l : List Instr) (s s' : State), (∀ i ∈ l, Q i) → runAll l s = .next s' → P s s'
  | [], s, s', _, e => by
    simp only [runAll, Host.Outcome.next.injEq] at e
    exact e ▸ refl s
  | i :: l, s, s', hq, e => by
    obtain ⟨s₁, h₁, h₂⟩ := (runAll_cons_eq_next i l s s').mp e
    exact trans _ _ _ (one _ _ _ (hq i (by simp)) h₁)
      (runAll_induct P Q refl trans one l s₁ s' (fun j hj => hq j (by simp [hj])) h₂)

end Sys2Proof.Machine
end

