-- ==== Sys2Proof/Laws/PerInstr.lean ====
section
/-! SUPPORT. Facts stated of every operation as syntax, one lemma per constructor. `Target`: the request an operation is encoded to
is addressed to the unit or peripheral the operation belongs to (R60's selector column against R63 and R64). -/

open Sys2Proof

/-- The request an operation encodes to is addressed to the operation's own target. -/
def Sys2Proof.Laws.Target.Statement (i : Instr) : Prop := (encode i).target = i.target

theorem Sys2Proof.Laws.Target.trdCtrl (t : Nat) : Sys2Proof.Laws.Target.Statement (.trdCtrl t) := rfl
theorem Sys2Proof.Laws.Target.trdCmd (t : Nat) : Sys2Proof.Laws.Target.Statement (.trdCmd t) := rfl
theorem Sys2Proof.Laws.Target.trdIen (t : Nat) : Sys2Proof.Laws.Target.Statement (.trdIen t) := rfl
theorem Sys2Proof.Laws.Target.trdIf (t : Nat) : Sys2Proof.Laws.Target.Statement (.trdIf t) := rfl
theorem Sys2Proof.Laws.Target.trdIfs (t : Nat) : Sys2Proof.Laws.Target.Statement (.trdIfs t) := rfl
theorem Sys2Proof.Laws.Target.trdIfc (t : Nat) : Sys2Proof.Laws.Target.Statement (.trdIfc t) := rfl
theorem Sys2Proof.Laws.Target.trdTop (t : Nat) : Sys2Proof.Laws.Target.Statement (.trdTop t) := rfl
theorem Sys2Proof.Laws.Target.trdCnt (t : Nat) : Sys2Proof.Laws.Target.Statement (.trdCnt t) := rfl
theorem Sys2Proof.Laws.Target.trdUnk (t offset : Nat) : Sys2Proof.Laws.Target.Statement (.trdUnk t offset) := rfl
theorem Sys2Proof.Laws.Target.twrCtrl (t : Nat) (value : Word) : Sys2Proof.Laws.Target.Statement (.twrCtrl t value) := rfl
theorem Sys2Proof.Laws.Target.twrCmd (t : Nat) (value : Word) : Sys2Proof.Laws.Target.Statement (.twrCmd t value) := rfl
theorem Sys2Proof.Laws.Target.twrIen (t : Nat) (value : Word) : Sys2Proof.Laws.Target.Statement (.twrIen t value) := rfl
theorem Sys2Proof.Laws.Target.twrIf (t : Nat) (value : Word) : Sys2Proof.Laws.Target.Statement (.twrIf t value) := rfl
theorem Sys2Proof.Laws.Target.twrIfs (t : Nat) (value : Word) : Sys2Proof.Laws.Target.Statement (.twrIfs t value) := rfl
theorem Sys2Proof.Laws.Target.twrIfc (t : Nat) (value : Word) : Sys2Proof.Laws.Target.Statement (.twrIfc t value) := rfl
theorem Sys2Proof.Laws.Target.twrTop (t : Nat) (value : Word) : Sys2Proof.Laws.Target.Statement (.twrTop t value) := rfl
theorem Sys2Proof.Laws.Target.twrCnt (t : Nat) (value : Word) : Sys2Proof.Laws.Target.Statement (.twrCnt t value) := rfl
theorem Sys2Proof.Laws.Target.twrUnk (t offset : Nat) (value : Word) : Sys2Proof.Laws.Target.Statement (.twrUnk t offset value) := rfl
theorem Sys2Proof.Laws.Target.tevFire (t : Nat) : Sys2Proof.Laws.Target.Statement (.tevFire t) := rfl
theorem Sys2Proof.Laws.Target.tevReset (t : Nat) : Sys2Proof.Laws.Target.Statement (.tevReset t) := rfl
theorem Sys2Proof.Laws.Target.urdCmd : Sys2Proof.Laws.Target.Statement (.urdCmd) := rfl
theorem Sys2Proof.Laws.Target.urdStatus : Sys2Proof.Laws.Target.Statement (.urdStatus) := rfl
theorem Sys2Proof.Laws.Target.urdRxdatax : Sys2Proof.Laws.Target.Statement (.urdRxdatax) := rfl
theorem Sys2Proof.Laws.Target.urdTxdata : Sys2Proof.Laws.Target.Statement (.urdTxdata) := rfl
theorem Sys2Proof.Laws.Target.urdIf : Sys2Proof.Laws.Target.Statement (.urdIf) := rfl
theorem Sys2Proof.Laws.Target.urdIfs : Sys2Proof.Laws.Target.Statement (.urdIfs) := rfl
theorem Sys2Proof.Laws.Target.urdIfc : Sys2Proof.Laws.Target.Statement (.urdIfc) := rfl
theorem Sys2Proof.Laws.Target.urdIen : Sys2Proof.Laws.Target.Statement (.urdIen) := rfl
theorem Sys2Proof.Laws.Target.urdUnk (offset : Nat) : Sys2Proof.Laws.Target.Statement (.urdUnk offset) := rfl
theorem Sys2Proof.Laws.Target.uwrCmd (value : Word) : Sys2Proof.Laws.Target.Statement (.uwrCmd value) := rfl
theorem Sys2Proof.Laws.Target.uwrStatus (value : Word) : Sys2Proof.Laws.Target.Statement (.uwrStatus value) := rfl
theorem Sys2Proof.Laws.Target.uwrRxdatax (value : Word) : Sys2Proof.Laws.Target.Statement (.uwrRxdatax value) := rfl
theorem Sys2Proof.Laws.Target.uwrTxdata (value : Word) : Sys2Proof.Laws.Target.Statement (.uwrTxdata value) := rfl
theorem Sys2Proof.Laws.Target.uwrIf (value : Word) : Sys2Proof.Laws.Target.Statement (.uwrIf value) := rfl
theorem Sys2Proof.Laws.Target.uwrIfs (value : Word) : Sys2Proof.Laws.Target.Statement (.uwrIfs value) := rfl
theorem Sys2Proof.Laws.Target.uwrIfc (value : Word) : Sys2Proof.Laws.Target.Statement (.uwrIfc value) := rfl
theorem Sys2Proof.Laws.Target.uwrIen (value : Word) : Sys2Proof.Laws.Target.Statement (.uwrIen value) := rfl
theorem Sys2Proof.Laws.Target.uwrUnk (offset : Nat) (value : Word) : Sys2Proof.Laws.Target.Statement (.uwrUnk offset value) := rfl
theorem Sys2Proof.Laws.Target.uevCanrx : Sys2Proof.Laws.Target.Statement (.uevCanrx) := rfl
theorem Sys2Proof.Laws.Target.uevRx (byte : Byte) : Sys2Proof.Laws.Target.Statement (.uevRx byte) := rfl
theorem Sys2Proof.Laws.Target.uevBreak : Sys2Proof.Laws.Target.Statement (.uevBreak) := rfl
theorem Sys2Proof.Laws.Target.uevReset : Sys2Proof.Laws.Target.Statement (.uevReset) := rfl
theorem Sys2Proof.Laws.Target.envAdvance (time : Nat) : Sys2Proof.Laws.Target.Statement (.envAdvance time) := rfl
end

