-- ==== Sys2Proof/Tests/Slice0.lean ====
section
/-! SUPPORT. The model's own tests. Expected values come from the rules and from 95_test_vectors.md (S, V and P numbers); records are
written out from the offsets of R63 and R64 and the field layout of log entry 4. -/

open Sys2Proof Sys2Proof.Machine

/-! ### Well-formedness: for each check an ill-formed term it refuses -/

theorem test_wf_unk_refuses_a_register_offset : (Instr.trdUnk 0 0x1C).offsetOk = false ∧ (Instr.uwrUnk 0x4C 0).offsetOk = false := by
  decide
theorem test_wf_unk_takes_an_unknown_offset : (Instr.twrUnk 0 0x20 0).offsetOk = true ∧ (Instr.urdUnk 0x24).offsetOk = true := by decide
theorem test_wf_refuses_a_missing_unit : (Instr.trdCnt 2).wf 2 = false ∧ (Instr.trdCnt 1).wf 2 = true := by decide
theorem test_wf_record_refuses_wide_operands :
    (Instr.tevFire 0x1000000).recordOk = false ∧ (Instr.urdUnk 0x100000000).recordOk = false := by decide
theorem test_wf_config_refuses_zero_vtu : ({ Config.sample with vtu := 0 } : Config).wf = false ∧ Config.sample.wf = true := by decide
theorem test_wf_refuses_zero_base_clock : baseClocksWf [1000, 0] = false ∧ baseClocksWf [] = false ∧ baseClocksWf [1000] = true := by
  decide

/-! ### Decoding: every constructor from its written-out record (offset in bits 31..0, R63 and R64) -/

theorem test_decode_timer_reads :
    [0x00, 0x04, 0x0C, 0x10, 0x14, 0x18, 0x1C, 0x24, 0x08, 0x00000500_00000026].map decodeRecord =
    [.ok (.trdCtrl 0), .ok (.trdCmd 0), .ok (.trdIen 0), .ok (.trdIf 0), .ok (.trdIfs 0), .ok (.trdIfc 0), .ok (.trdTop 0),
     .ok (.trdCnt 0), .ok (.trdUnk 0 0x08), .ok (.trdUnk 5 0x26)] := by decide
theorem test_decode_timer_writes :
    [0x05000011_00000001_00000000, 0x00000001_00000001_00000004, 0x00000002_00000001_0000000C, 0x00000003_00000001_00000010,
     0x00000003_00000101_00000014, 0x00000002_00000001_00000018, 0x000003E8_00000001_0000001C, 0xFFFFFFFF_00000001_00000024,
     0x00000001_00000001_00000020].map decodeRecord =
    [.ok (.twrCtrl 0 0x05000011), .ok (.twrCmd 0 1), .ok (.twrIen 0 2), .ok (.twrIf 0 3), .ok (.twrIfs 1 3), .ok (.twrIfc 0 2),
     .ok (.twrTop 0 1000), .ok (.twrCnt 0 0xFFFFFFFF), .ok (.twrUnk 0 0x20 1)] := by decide
theorem test_decode_uart_reads :
    [0x00000002_0000000C, 0x00000002_00000010, 0x00000002_00000018, 0x00000002_00000034, 0x00000002_00000040,
     0x00000002_00000044, 0x00000002_00000048, 0x00000002_0000004C, 0x00000002_00000000].map decodeRecord =
    [.ok .urdCmd, .ok .urdStatus, .ok .urdRxdatax, .ok .urdTxdata, .ok .urdIf, .ok .urdIfs, .ok .urdIfc, .ok .urdIen,
     .ok (.urdUnk 0)] := by decide
theorem test_decode_uart_writes :
    [0x00000001_00000003_0000000C, 0x00000000_00000003_00000010, 0x00000055_00000003_00000018, 0x00000041_00000003_00000034,
     0x000000FF_00000003_00000040, 0x00000005_00000003_00000044, 0x00000004_00000003_00000048, 0x00000004_00000003_0000004C,
     0x12345678_00000003_00000000].map decodeRecord =
    [.ok (.uwrCmd 1), .ok (.uwrStatus 0), .ok (.uwrRxdatax 0x55), .ok (.uwrTxdata 0x41), .ok (.uwrIf 0xFF), .ok (.uwrIfs 5),
     .ok (.uwrIfc 4), .ok (.uwrIen 4), .ok (.uwrUnk 0 0x12345678)] := by decide
theorem test_decode_events :
    [0x00000304_00000000, 0x00000005_00000000, 0x00000006_00000000, 0x0000007A_00000007_00000000, 0x00000008_00000000,
     0x00000009_00000000, 0x00000001_00000000_0000000A_00000000].map decodeRecord =
    [.ok (.tevFire 3), .ok (.tevReset 0), .ok .uevCanrx, .ok (.uevRx 0x7A), .ok .uevBreak, .ok .uevReset,
     .ok (.envAdvance 0x100000000)] := by decide
theorem test_decode_rejects_by_name :
    [0x0000000B_00000000, 0x00000001_00000000_00000000, 0x00000100_00000007_00000000, 0x00000108_00000000].map decodeRecord =
    [.error .reservedSelector, .error .reservedField, .error .operandTooWide, .error .reservedField] := by decide
theorem test_decode_table_word : decodeTableWord 32 0x24 = some (.trdCnt 0) ∧ decodeTableWord 64 0x0000000B_00000000 = none := by decide

/-! ### Small states -/

/-- A Timer unit in its reset state with the cells given. -/
def unitOf (clock : Nat) (ctrl ien iflag top cnt : Word) (rate : Nat) (deadline : Option Nat) : Timer :=
  { baseClock := clock, ctrl := ctrl, ien := ien, iflag := iflag, top := top, cnt := cnt, rate := rate, deadline := deadline }

/-- A machine with one Timer unit, `VTU = 10^9` and the UART as after reset. -/
def oneUnit (now : Nat) (T : Timer) : State :=
  { config := Config.sample, now := now, timers := [T], uart := Uart.initial, tx := [], pending := [], response := .nothing }

/-- A machine with the UART cells given, the transport attached or not. -/
def uartOf (attached : Bool) (status rxdatax iflag ien : Word) : State :=
  { oneUnit 0 (Timer.initial 1000) with
    config := { Config.sample with transportAttached := attached },
    uart := { status := status, rxdatax := rxdatax, iflag := iflag, ien := ien } }

/-- What is seen of the next state, or nothing where there is none. -/
def seen {α : Type} (f : State → α) : Result → Option α
  | .next s => some (f s)
  | .fault _ | .refused _ => none

/-- The fault of an outcome that is one. -/
def faultOf : Result → Option Fault
  | .fault r => some r
  | .next _ | .refused _ => none

def answerOf (o : Result) : Option Response := seen (fun s => s.response) o
def deadlinesOf (o : Result) : Option (List (Option Nat)) := seen (fun s => s.timers.map (fun T => T.deadline)) o
def ratesOf (o : Result) : Option (List Nat) := seen (fun s => s.timers.map (fun T => T.rate)) o
def linesOf (o : Result) : Option (List (Word × Bool)) := seen (fun s => s.timers.map (fun T => (T.iflag, T.irq))) o
def uartOut (o : Result) : Option (Uart × Bool) := seen (fun s => (s.uart, s.uart.irq)) o

/-! ### Timer -/

/-- V12: the live count at 32 MHz is 160000 when `now` is 5000000. -/
theorem test_trdCnt_live : answerOf (exec (.trdCnt 0) (oneUnit 5000000 (Timer.initial 32000000))) = some (.word 0x00027100) := by decide
/-- V3: 2^32 + 5 ticks read as 5, and the cell is not read. -/
theorem test_trdCnt_wraps : answerOf (exec (.trdCnt 0) (oneUnit 4294967301000 (unitOf 1000000 0 0 0 0 0xDEADBEEF 1000000 none))) =
    some (.word 5) := by decide
theorem test_trdCtrl : answerOf (exec (.trdCtrl 0) (oneUnit 0 (unitOf 1000 0xA5A5A5B1 1 2 3 4 1 none))) = some (.word 0xA5A5A5B1) := by decide
theorem test_trdIen : answerOf (exec (.trdIen 0) (oneUnit 0 (unitOf 1000 5 0xFFFFFFFF 2 3 4 1 none))) = some (.word 0xFFFFFFFF) := by decide
/-- V6: reading `IF` does not clear it. -/
theorem test_trdIf_keeps : seen (fun s => (s.response, s.timers)) (exec (.trdIf 0) (oneUnit 0 (unitOf 1000 5 1 1 3 4 1 none))) =
    some (.word 1, [unitOf 1000 5 1 1 3 4 1 none]) := by decide
/-- V5. -/
theorem test_trdTop : answerOf (exec (.trdTop 0) (oneUnit 0 (unitOf 1000 5 6 7 0x3E8 4 1 none))) = some (.word 0x3E8) := by decide
/-- V5: with `IF = 3` the write-only registers read 0. -/
theorem test_trd_write_only : [Instr.trdCmd 0, .trdIfs 0, .trdIfc 0, .trdUnk 0 0x01].map
    (fun i => answerOf (exec i (oneUnit 0 (unitOf 1000 5 6 3 8 4 1 none)))) = [some (.word 0), some (.word 0), some (.word 0),
    some (.word 0)] := by decide
/-- V1, every row: the base clock, the value, the rate. -/
theorem test_twrCtrl_rate : [(32000000, 0x05000011), (14000000, 0x04000000), (1000000, 0x03000000), (1000, 0x09000000),
    (1000, 0x0A000000), (1000, 0xFF000000), (1000, 0x00FFFFEC)].map
      (fun p : Nat × Word => ratesOf (exec (.twrCtrl 0 p.2) (oneUnit 0 (Timer.initial p.1)))) =
    [some [1000000], some [875000], some [125000], some [1], some [1], some [1], some [1000]] := by decide
/-- V8: the pending deadline stays. -/
theorem test_twrCtrl_keeps_deadline : deadlinesOf (exec (.twrCtrl 0 0x03000000) (oneUnit 0 (unitOf 1000000 1 0 0 1000 0 1000000
    (some 1000000)))) = some [some 1000000] := by decide
/-- V4, every row: `CTRL`, `TOP`, `CNT`, the deadline of a start at `now = 0`. -/
theorem test_twrCmd_start : [((0x00 : Word), (0 : Word), (7 : Word)), (0x00, 1000, 7), (0x00, 0xFFFFFFFF, 7), (0x01, 1000, 7), (0x01, 0, 7),
      (0x10, 7, 500), (0x11, 7, 500), (0x02, 1000, 7), (0x13, 7, 500)].map
      (fun p => deadlinesOf (exec (.twrCmd 0 1) (oneUnit 0 (unitOf 1000000 p.1 0 0 p.2.1 p.2.2 1000000 none)))) =
    [4294967295000, 4294966295000, 0, 1000000, 0, 4294966795000, 500000, 1000000, 500000].map (fun d => some [some d]) := by decide
/-- V4: the other `CMD` values, on an armed unit. -/
theorem test_twrCmd_values : [0x0, 0x2, 0x3, 0xFFFFFFFC, 0xFFFFFFFD].map
      (fun v : Word => deadlinesOf (exec (.twrCmd 0 v) (oneUnit 10 (unitOf 1000000 1 0 0 1000 0 1000000 (some 99))))) =
    [some [some 99], some [none], some [none], some [some 99], some [some 1000010]] := by decide
/-- V6: enabling a pending bit raises the line. -/
theorem test_twrIen : linesOf (exec (.twrIen 0 2) (oneUnit 0 (unitOf 1000 0 0 3 0 0 1000 none))) = some [(3, true)] := by decide
/-- V6. -/
theorem test_twrIf_ignored : linesOf (exec (.twrIf 0 0) (oneUnit 0 (unitOf 1000 0 0 1 0 0 1000 none))) = some [(1, false)] := by decide
/-- V6: no bit is masked. -/
theorem test_twrIfs : linesOf (exec (.twrIfs 0 0x80000000) (oneUnit 0 (unitOf 1000 0 0x80000000 1 0 0 1000 none))) =
    some [(0x80000001, true)] := by decide
/-- V6: one-shot, the deadline stays. -/
theorem test_twrIfc_one_shot : seen (fun s => s.timers) (exec (.twrIfc 0 2) (oneUnit 0 (unitOf 1000 0x10 2 3 0 0 1000 (some 7)))) =
    some [unitOf 1000 0x10 2 1 0 0 1000 (some 7)] := by decide
/-- V7: a clear of nothing arms a periodic unit that was never started, and a pending deadline is pushed. -/
theorem test_twrIfc_periodic : [((77 : Nat), (none : Option Nat)), (400000, some 500000)].map (fun p => deadlinesOf (exec (.twrIfc 0 0)
      (oneUnit p.1 (unitOf 1000000 1 0 0 1000 0 1000000 p.2)))) = [some [some 1000077], some [some 1400000]] := by decide
theorem test_twrTop : seen (fun s => s.timers) (exec (.twrTop 0 0x3E8) (oneUnit 0 (unitOf 9 1 2 3 4 5 9 (some 6)))) =
    some [unitOf 9 1 2 3 0x3E8 5 9 (some 6)] := by decide
theorem test_twrCnt : seen (fun s => s.timers) (exec (.twrCnt 0 0x1F4) (oneUnit 0 (unitOf 9 1 2 3 4 5 9 (some 6)))) =
    some [unitOf 9 1 2 3 4 0x1F4 9 (some 6)] := by decide
/-- R101's example. -/
theorem test_twrUnk : exec (.twrUnk 0 0x20 0xFFFFFFFF) (oneUnit 0 (unitOf 9 1 2 3 4 5 9 none)) =
    .next (oneUnit 0 (unitOf 9 1 2 3 4 5 9 none)) := by rfl
/-- V8: the mode at firing time picks the flag; V7: a mode that is not up sets `UF`. -/
theorem test_tevFire_mode : [(0x03000000 : Word), 0x1, 0x2, 0x3].map (fun c => seen (fun s => s.timers.map (fun T => (T.iflag, T.deadline)))
      (exec (.tevFire 0) (oneUnit 1000000 (unitOf 9 c 0 0 1000 0 9 (some 1000000))))) =
    [some [(1, none)], some [(2, none)], some [(2, none)], some [(2, none)]] := by decide
/-- R115: not due one quantum early, and not at all with no deadline. -/
theorem test_tevFire_not_due : [some 1000001, none].map (fun d => faultOf (exec (.tevFire 0) (oneUnit 1000000 (unitOf 9 0 0 0 0 0 9 d)))) =
    [some .fireNotEnabled, some .fireNotEnabled] := by decide
/-- V12. -/
theorem test_tevReset : seen (fun s => s.timers) (exec (.tevReset 0) (oneUnit 50 (unitOf 32000000 0x05000011 2 2 9 500 1000000 (some 123)))) =
    some [unitOf 32000000 0 0 0 0 0 32000000 none] := by decide
/-- R116: time may reach a pending deadline, not pass it; a deadline already reached holds it; it never goes back. -/
theorem test_envAdvance : [(0, 500), (0, 501), (600, 600), (600, 601), (600, 599)].map (fun p : Nat × Nat => seen (fun s => s.now)
      (exec (.envAdvance p.2) (oneUnit p.1 (unitOf 9 0 0 0 0 0 9 (some 500))))) = [some 500, none, some 600, none, none] := by decide
/-- R34: the second unit's write leaves the first. -/
theorem test_units_are_apart : seen (fun s => s.timers.map (fun T => T.top)) (exec (.twrTop 1 7)
    (State.initial Config.sample [1000, 2000, 3000])) = some [0, 7, 0] := by decide

/-! ### UART -/

/-- S6: the read releases the slot and the line falls (V9). -/
theorem test_urdRxdatax : seen (fun s => (s.response, s.uart, s.uart.irq)) (exec .urdRxdatax (uartOf true 0xC0 0x7A 0x4 0x4)) =
    some (.word 0x7A, { status := 0x40, rxdatax := 0x7A, iflag := 0, ien := 0x4 }, false) := by decide
/-- S6: the second read returns the last value. -/
theorem test_urdRxdatax_again : answerOf (exec .urdRxdatax (uartOf true 0x40 0x7A 0 0)) = some (.word 0x7A) := by decide
theorem test_urd_cells : [Instr.urdStatus, .urdIf, .urdIen].map (fun i => answerOf (exec i (uartOf true 0xC0 0x7A 0x5 0x3))) =
    [some (.word 0xC0), some (.word 0x5), some (.word 0x3)] := by decide
/-- V5. -/
theorem test_urd_zero : [Instr.urdCmd, .urdTxdata, .urdIfs, .urdIfc, .urdUnk 0x14].map (fun i => seen (fun s => (s.response, s.uart))
      (exec i (uartOf true 0xC0 0x7A 0x5 0x3))) = List.replicate 5 (some (.word 0, { status := 0xC0, rxdatax := 0x7A, iflag := 0x5, ien := 0x3 })) := by
  decide
/-- V9: enabling while a byte waits raises the line. -/
theorem test_uwrIen : uartOut (exec (.uwrIen 0x4) (uartOf true 0xC0 0x7A 0x4 0)) =
    some ({ status := 0xC0, rxdatax := 0x7A, iflag := 0x4, ien := 0x4 }, true) := by decide
/-- V9: bit 2 cannot be set. -/
theorem test_uwrIfs : [0x4, 0x5].map (fun v : Word => seen (fun s => s.uart.iflag) (exec (.uwrIfs v) (uartOf true 0x40 0 0 0))) =
    [some 0, some 0x1] := by decide
/-- V9: bit 2 cannot be cleared. -/
theorem test_uwrIfc : [0x4, 0x5].map (fun v : Word => seen (fun s => s.uart.iflag) (exec (.uwrIfc v) (uartOf true 0xC0 0x7A 0x5 0))) =
    [some 0x5, some 0x4] := by decide
/-- V10: the low byte, at the end of the stream; S5: dropped with no transport. -/
theorem test_uwrTxdata : [true, false].map (fun a => seen (fun s => (s.tx, s.uart.status)) (exec (.uwrTxdata 0x141)
      { uartOf a 0x40 0 0 0 with tx := [0x00] })) = [some ([0x00, 0x41], 0x40), some ([0x00], 0x40)] := by decide
/-- V9, last but two. -/
theorem test_uwr_ignored : [Instr.uwrStatus 0, .uwrRxdatax 0x55, .uwrIf 0xFF, .uwrCmd 1, .uwrUnk 0 0x12345678].map (fun i => seen (fun s => s.uart)
      (exec i (uartOf true 0xC0 0x7A 0x4 0))) = List.replicate 5 (some { status := 0xC0, rxdatax := 0x7A, iflag := 0x4, ien := 0 }) := by decide
/-- S7. -/
theorem test_uevCanrx : [0x40, 0xC0].map (fun st : Word => answerOf (exec .uevCanrx (uartOf true st 0 0 0))) =
    [some (.bool true), some (.bool false)] := by decide
/-- R157's example, after a break (V11: `FERR` does not stick). -/
theorem test_uevRx : uartOut (exec (.uevRx 0x7A) (uartOf true 0x40 0x8000 0 0x4)) =
    some ({ status := 0xC0, rxdatax := 0x7A, iflag := 0x4, ien := 0x4 }, true) := by decide
/-- V11: full, the byte waits in the transport; R160: no transport, no byte. -/
theorem test_uevRx_stops : [(true, 0xC0), (false, 0x40)].map (fun p : Bool × Word => faultOf (exec (.uevRx 0x7B) (uartOf p.1 p.2 0x7A 0 0))) =
    [some .receiveNotEnabled, some .transportNotAttached] := by decide
/-- S8, V11: not gated, the waiting byte is lost. -/
theorem test_uevBreak : uartOut (exec .uevBreak (uartOf true 0xC0 0x7A 0x4 0)) =
    some ({ status := 0xC0, rxdatax := 0x8000, iflag := 0x4, ien := 0 }, false) := by decide
/-- R201's example; the stream stays. -/
theorem test_uevReset : seen (fun s => (s.uart, s.tx)) (exec .uevReset { uartOf true 0xC0 0x7A 4 4 with tx := [0x41] }) =
    some (Uart.initial, [0x41]) := by decide

/-! ### The step -/

/-- The first request after reset runs first (log entry 1). -/
theorem test_step_after_reset : answerOf (step (State.reset.withFetchWord 32 0x1C)) = some (.word 0) := by decide
theorem test_step_serves_in_order : seen (fun s => (s.uart.ien, s.pending)) (step { State.reset with
    pending := [.uartWrite 0x4C 4, .uartBreak] }) = some (4, [.uartBreak]) := by decide
theorem test_step_with_no_request : faultOf (step State.reset) = some .noRequest := by decide
theorem test_step_on_a_missing_unit : step { State.reset with pending := [.timerRead 1 0x24] } = .refused .noSuchTimer := by rfl
/-- P1, lines 4, 5 and 7. -/
theorem test_run_one_shot : seen (fun s => (s.now, s.timers)) (runAll [.twrCmd 0 1, .envAdvance 500000, .tevFire 0]
    (oneUnit 0 (unitOf 32000000 0x05000011 2 0 0 500 1000000 none))) =
    some (500000, [unitOf 32000000 0x05000011 2 2 0 500 1000000 none]) := by decide

/-! ### Witnesses: for each statement with hypotheses, a concrete state and operands that meet them together -/

/-- Two Timer units, the first due now; a byte waiting in the UART; two requests waiting. -/
def demo : State :=
  { config := Config.sample, now := 500000,
    timers := [unitOf 32000000 0x05000001 2 1 500 7 1000000 (some 500000), Timer.initial 1000],
    uart := { status := 0xC0, rxdatax := 0x7A, iflag := 0x5, ien := 0x4 }, tx := [0x41],
    pending := [.uartRead 0x18, .timerWrite 1 0x1C 9], response := .nothing }

/-- The same machine with nothing waiting in the UART. -/
def demoEmpty : State := { demo with uart := { status := 0x40, rxdatax := 0x7A, iflag := 0x1, ien := 0x4 } }

/-- The same machine built with no transport. -/
def demoDetached : State :=
  { demoEmpty with config := { Config.sample with transportAttached := false }, tx := [],
                   uart := { status := 0x40, rxdatax := 0, iflag := 0x1, ien := 0x4 } }

theorem demo_unit0 : demo.timers[0]? = some (unitOf 32000000 0x05000001 2 1 500 7 1000000 (some 500000)) := by rfl
theorem demo_unit1 : demo.timers[1]? = some (Timer.initial 1000) := by rfl

theorem demo_timers_inv : ∀ T ∈ demo.timers, T.Inv demo.now := by
  intro T hT
  rcases List.mem_cons.mp hT with rfl | hT
  · exact ⟨by decide, by decide, by decide, fun d h => by cases h; decide⟩
  · rw [List.mem_singleton.mp hT]
    exact ⟨by decide, by decide, by decide, fun d h => by cases h⟩

theorem demo_inv : demo.Inv := ⟨by decide, by decide, by decide, demo_timers_inv, ⟨by decide, by decide, by decide⟩, by decide⟩
theorem demoDetached_inv : demoDetached.Inv :=
  ⟨by decide, by decide, by decide, demo_timers_inv, ⟨by decide, by decide, by decide⟩, by decide⟩

theorem demo_others_idle : ∀ (u : Nat) (T' : Timer), demo.timers[u]? = some T' → u ≠ 0 → T'.deadline = none := by
  intro u T' h hu
  match u with
  | 0 => exact absurd rfl hu
  | 1 => cases h; rfl
  | n + 2 => simp [demo] at h

theorem test_witness_OffsetsSelectOperationsByExactMatch : ∀ o ∈ [0x01, 0x08, 0x20, 0x25, 0x28, 0x50],
    o ∉ [0x00, 0x04, 0x0C, 0x10, 0x14, 0x18, 0x1C, 0x24] ∧ o ∉ [0x0C, 0x10, 0x18, 0x34, 0x40, 0x44, 0x48, 0x4C] := by decide
theorem test_witness_RequestsAndOperationsCorrespond : (Instr.trdUnk 0 0x08).offsetOk = true ∧ (Instr.uwrUnk 0x50 1).offsetOk = true := by
  decide
theorem test_witness_RecordRoundTripsForEveryOperation : (Instr.twrUnk 0xFFFFFF 0xFFFFFFFF 0xFFFFFFFF).offsetOk = true ∧
    (Instr.twrUnk 0xFFFFFF 0xFFFFFFFF 0xFFFFFFFF).recordOk = true := by decide
theorem test_witness_StepRunsTheDecodedRequest : demo.pending = .uartRead 0x18 :: [.timerWrite 1 0x1C 9] ∧ State.reset.pending = [] ∧
    (Instr.uwrTxdata 0xFFFFFFFF).offsetOk = true ∧ (Instr.uwrTxdata 0xFFFFFFFF).recordOk = true ∧
    encodeRecord (.uwrTxdata 0xFFFFFFFF) < 2 ^ 96 := by decide
theorem test_witness_StepsThatDoNotExistStopByName :
    demo.timers[1]? = some (Timer.initial 1000) ∧ (Timer.initial 1000).deadline = none ∧
    demo.now - 1 < demo.now ∧ (unitOf 32000000 0x05000001 2 1 500 7 1000000 (some 500000)) ∈ demo.timers ∧ max 500000 demo.now < 500001 ∧
    demo.config.transportAttached = true ∧ demo.uart.status.getLsbD 7 = true ∧ (Instr.trdCnt 2).unitOk demo.timers.length = false := by
  decide
theorem test_witness_EveryStepKeepsTheInvariant : demo.Inv ∧ ∃ s', step demo = .next s' := ⟨demo_inv, _, rfl⟩
theorem test_witness_InitialStatesMeetTheInvariant : ({ vtu := 4294967295, transportAttached := false, breakByte := 0xFF } : Config).wf = true ∧
    baseClocksWf [1, 4294967295] = true := by decide
theorem test_witness_RunsKeepTheInvariant : demo.Inv ∧ ∃ s', Host.Core.run Sys2Proof.core 2 demo = .next s' := ⟨demo_inv, _, rfl⟩
theorem test_witness_ReceiveFlagEqualsDataValid : (∃ s', exec .urdRxdatax demo = .next s') ∧
    demo.uart.iflag.getLsbD 2 = demo.uart.status.getLsbD 7 ∧ Instr.urdRxdatax.target = .uart ∧
    Instr.urdRxdatax ∉ [.urdStatus, .urdIf, .urdIen, .uevCanrx] := ⟨⟨_, rfl⟩, by decide, by decide, by decide⟩
theorem test_witness_TransitionsTouchOneUnitOnly :
    ((Instr.tevFire 0).target = .timer 0 ∧ demo.timers[0]? = demoEmpty.timers[0]? ∧ demo.now = demoEmpty.now ∧ demo.config = demoEmpty.config ∧
      ∃ s', exec (.tevFire 0) demo = .next s') ∧
    ((Instr.uwrTxdata 7).target = .uart ∧ demo.uart = ({ demo with now := 0, timers := [] } : State).uart ∧
      ∃ s', exec (.uwrTxdata 7) demo = .next s') :=
  ⟨⟨by decide, by decide, by decide, by decide, _, rfl⟩, by decide, by decide, _, rfl⟩
/-- A change of each cell by an operation that may make it. -/
theorem test_witness_TimerCellsChangeOnlyByTheirOperations :
    [Instr.twrCtrl 0 0x10, .twrIen 0 1, .twrTop 0 1, .twrCnt 0 1, .twrIfs 0 2, .tevFire 0].map (fun i => seen (fun s =>
      s.timers[0]?.map (fun T => (T.ctrl, T.rate, T.ien, T.top, T.cnt, T.iflag, T.deadline))) (exec i demo)) =
    [some (some (0x10, 32000000, 2, 500, 7, 1, some 500000)), some (some (0x05000001, 1000000, 1, 500, 7, 1, some 500000)),
     some (some (0x05000001, 1000000, 2, 1, 7, 1, some 500000)), some (some (0x05000001, 1000000, 2, 500, 1, 1, some 500000)),
     some (some (0x05000001, 1000000, 2, 500, 7, 3, some 500000)), some (some (0x05000001, 1000000, 2, 500, 7, 3, none))] := by rfl
/-- A change of each cell by an operation that may make it. -/
theorem test_witness_UartCellsChangeOnlyByTheirOperations :
    [Instr.uevRx 0x55, .uwrIen 1, .uwrIfs 2, .uwrTxdata 9].map (fun i => seen (fun s => (s.uart, s.tx)) (exec i demoEmpty)) =
    [some ({ status := 0xC0, rxdatax := 0x55, iflag := 0x5, ien := 4 }, [0x41]), some ({ status := 0x40, rxdatax := 0x7A, iflag := 1, ien := 1 }, [0x41]),
     some ({ status := 0x40, rxdatax := 0x7A, iflag := 3, ien := 4 }, [0x41]), some ({ status := 0x40, rxdatax := 0x7A, iflag := 1, ien := 4 }, [0x41, 9])] ∧
    seen (fun s => s.now) (exec (.envAdvance 600000) { demo with timers := [] }) = some 600000 := by decide
/-- Bit 1 rises at the callback, bit 0 falls at a clear. -/
theorem test_witness_TimerFlagBitsMoveOnlyByTheirSources : [Instr.tevFire 0, .twrIfc 0 1].map (fun i => seen (fun s =>
      s.timers[0]?.map (fun T => (T.iflag.getLsbD 0, T.iflag.getLsbD 1))) (exec i demo)) = [some (some (true, true)), some (some (false, false))] := by
  decide
theorem test_witness_ReceiverFillsAndEmptiesOnlyByItsEvents : demoEmpty.uart.status.getLsbD 7 = false ∧
    seen (fun s => s.uart.status.getLsbD 7) (exec (.uevRx 1) demoEmpty) = some true ∧ demo.uart.status.getLsbD 7 = true ∧
    seen (fun s => s.uart.status.getLsbD 7) (exec .urdRxdatax demo) = some false := by decide
theorem test_witness_TransmitStreamIsAppendOnly : (∃ s', exec (.uwrTxdata 9) demo = .next s') ∧
    demoDetached.config.transportAttached = false ∧ demoDetached.tx = [] ∧ ∃ s', runAll [.uwrTxdata 9, .urdStatus] demoDetached = .next s' :=
  ⟨⟨_, rfl⟩, by decide, by decide, _, rfl⟩
theorem test_witness_VirtualTimeNeverGoesBack : (∃ s', runAll [.tevFire 0, .envAdvance 700000] demo = .next s') ∧
    (∀ i ∈ [Instr.tevFire 0, .urdStatus], ∀ time, i ≠ .envAdvance time) ∧ ∃ s', runAll [.tevFire 0, .urdStatus] demo = .next s' :=
  ⟨⟨_, rfl⟩, by simp, _, rfl⟩
theorem test_witness_ParametersNeverChange : ∃ s', runAll [.twrCtrl 0 0, .tevReset 1, .uevReset] demo = .next s' := ⟨_, rfl⟩

/-- The unit, the writes, the reset and a step that is none of them. -/
theorem test_witness_ControlAndEnableReadBackAsWritten :
    demo.timers[0]? = some (unitOf 32000000 0x05000001 2 1 500 7 1000000 (some 500000)) ∧
    (∃ s', exec (.twrCtrl 0 0xFFFFFFFF) demo = .next s') ∧ (∃ s', exec (.twrIen 0 0xFFFFFFFF) demo = .next s') ∧
    (∃ s', exec (.tevReset 0) demo = .next s') ∧ (∃ s', exec (.tevFire 0) demo = .next s') ∧ Instr.tevFire 0 ≠ .tevReset 0 ∧
    ∀ v, Instr.tevFire 0 ≠ .twrCtrl 0 v ∧ Instr.tevFire 0 ≠ .twrIen 0 v :=
  ⟨rfl, ⟨_, rfl⟩, ⟨_, rfl⟩, ⟨_, rfl⟩, ⟨_, rfl⟩, by decide, by simp⟩
theorem test_witness_TimerFlagReadClearsNothing :
    demo.timers[0]? = some (unitOf 32000000 0x05000001 2 1 500 7 1000000 (some 500000)) ∧
    (∃ s', exec (.trdIf 0) demo = .next s') ∧ Instr.trdIf 0 ≠ .tevFire 0 ∧ (∀ v, Instr.trdIf 0 ≠ .twrIfs 0 v ∧ Instr.trdIf 0 ≠ .twrIfc 0 v) ∧
    Instr.trdIf 0 ≠ .tevReset 0 ∧ ∃ s', exec (.twrIfs 0 0x80000000) demo = .next s' :=
  ⟨rfl, ⟨_, rfl⟩, by decide, by simp, by decide, _, rfl⟩
/-- One offset under each alternative, the least above the map among them. -/
theorem test_witness_TimerUnknownReadReturnsZero : demo.timers[1]? = some (Timer.initial 1000) ∧
    ∀ o ∈ [0x08, 0x20, 0x25, 0x01, 0x28], o ∈ [0x08, 0x20] ∨ 0x24 < o ∨ o % 4 ≠ 0 := by decide
theorem test_witness_WriteOnlyTimerRegistersReadZeroAndTopReadsBack :
    demo.timers[0]? = some (unitOf 32000000 0x05000001 2 1 500 7 1000000 (some 500000)) ∧ ∃ s', exec (.twrTop 0 9) demo = .next s' :=
  ⟨rfl, _, rfl⟩
theorem test_witness_OnlyRxdataxReadHasASideEffect : demo.Inv ∧ demo.timers[1]? = some (Timer.initial 1000) := ⟨demo_inv, rfl⟩
/-- The one hypothesis of the statements about one Timer unit with no other: `CountReadIsLiveVirtualTime`,
`ControlWriteStoresAndSetsTheRate`, `EnableAndTopWritesStoreTheValue`, `CommandWriteStartsAndStops`, `TimerFlagSetWriteOrsTheFlags`,
`TimerFlagClearWriteClearsAndRearms`. -/
theorem test_witness_one_timer_unit : demo.timers[0]? = some (unitOf 32000000 0x05000001 2 1 500 7 1000000 (some 500000)) ∧
    demo.timers[1]? = some (Timer.initial 1000) := by decide
theorem test_witness_CountWriteStoresOnlyTheOneShotBase : demo.timers[1]? = some (Timer.initial 1000) ∧
    (Timer.initial 1000).ctrl.getLsbD 4 = false ∧ (∃ s', exec (.trdCnt 1) demo = .next s') ∧ (∃ s', exec (.twrCmd 1 1) demo = .next s') ∧
    ∃ s₁, exec (.twrCnt 1 77) demo = .next s₁ ∧ (∃ s₂, exec (.envAdvance 500000) s₁ = .next s₂) ∧ ∃ s₃, exec (.twrCmd 1 1) s₁ = .next s₃ :=
  ⟨rfl, by decide, ⟨_, rfl⟩, ⟨_, rfl⟩, _, rfl, ⟨_, rfl⟩, _, rfl⟩
/-- R98's example: one-shot down, the start comes 40 quanta after the write. -/
theorem test_witness_CountWriteStoresOnlyTheOneShotBase_one_shot :
    (oneUnit 0 (unitOf 1000000 0x11 0 0 7 0 1000000 none)).timers[0]? = some (unitOf 1000000 0x11 0 0 7 0 1000000 none) ∧
    (0x11 : Word).getLsbD 4 = true ∧ deadlinesOf (runAll [.twrCnt 0 0x1F4, .envAdvance 40, .twrCmd 0 1]
      (oneUnit 0 (unitOf 1000000 0x11 0 0 7 0 1000000 none))) = some [some 500040] := by decide
theorem test_witness_TimerUnknownWriteChangesNothing : demo.timers[1]? = some (Timer.initial 1000) ∧
    ∀ o ∈ [0x08, 0x20, 0x25, 0x01, 0x28], o ∈ [0x08, 0x20] ∨ 0x24 < o ∨ o % 4 ≠ 0 := by decide
theorem test_witness_StoringWritesAreIdempotent : ∀ i ∈ [Instr.twrCtrl 1 7, .twrIen 1 7, .twrTop 1 7, .twrCnt 1 7, .twrIfs 1 7, .uwrIen 7,
    .uwrIfs 7, .uwrIfc 7], (seen (fun _ => ()) (exec i demo)).isSome = true := by decide
/-- The last quantum before which the deadline is not due. -/
theorem test_witness_DeadlineCallbackSetsTheModeFlag :
    demo.timers[0]? = some (unitOf 32000000 0x05000001 2 1 500 7 1000000 (some 500000)) ∧ 500000 ≤ demo.now := by decide
/-- Up to the pending deadline, and not past it. -/
theorem test_witness_AdvanceMovesOnlyVirtualTime : demo.now ≤ 500000 ∧
    ∀ T ∈ demo.timers, ∀ d, T.deadline = some d → 500000 ≤ max d demo.now :=
  ⟨by decide, fun _ _ _ _ => Nat.le_max_right _ _⟩
theorem test_witness_StoppedTimerNeverFires :
    demo.timers[0]? = some (unitOf 32000000 0x05000001 2 1 500 7 1000000 (some 500000)) ∧ (0x2 : Word).getLsbD 1 = true ∧
    ∃ s₁, exec (.twrCmd 0 2) demo = .next s₁ ∧
      (∀ i ∈ [Instr.twrCmd 0 3, .twrCtrl 0 0, .envAdvance 900000],
        (∀ w : Word, i = .twrCmd 0 w → w.getLsbD 0 = false ∨ w.getLsbD 1 = true) ∧ ∀ w, i ≠ .twrIfc 0 w) ∧
      ∃ s₂, runAll [.twrCmd 0 3, .twrCtrl 0 0, .envAdvance 900000] s₁ = .next s₂ :=
  ⟨rfl, by decide, _, rfl, by simp, _, rfl⟩
/-- And a unit stopped while it was not armed. -/
theorem test_witness_StoppedTimerNeverFires_idle : demo.timers[1]? = some (Timer.initial 1000) ∧ (Timer.initial 1000).deadline = none := by decide
theorem test_witness_StartedTimerExpiresOnce :
    demo.timers[0]? = some (unitOf 32000000 0x05000001 2 1 500 7 1000000 (some 500000)) ∧ (0x1 : Word).getLsbD 0 = true ∧
    (0x1 : Word).getLsbD 1 = false ∧ (∀ (u : Nat) (T' : Timer), demo.timers[u]? = some T' → u ≠ 0 → T'.deadline = none) :=
  ⟨rfl, by decide, by decide, demo_others_idle⟩
theorem test_witness_AcknowledgeMeasuresThePeriodFromItself :
    demo.timers[0]? = some (unitOf 32000000 0x05000001 2 1 500 7 1000000 (some 500000)) ∧ 500000 ≤ demo.now ∧ demo.now ≤ 500123 ∧
    (∀ (u : Nat) (T' : Timer), demo.timers[u]? = some T' → u ≠ 0 → T'.deadline = none) := ⟨rfl, by decide, by decide, demo_others_idle⟩
theorem test_witness_ZeroTopAcknowledgeFiresAtOnce : demo.timers[1]? = some (Timer.initial 1000) ∧
    (Timer.initial 1000).ctrl.getLsbD 4 = false ∧ (Timer.initial 1000).top = 0 ∧ demo.now < 500001 := by decide
theorem test_witness_TimerResetClearsTheUnit : demo.timers[0]? = some (unitOf 32000000 0x05000001 2 1 500 7 1000000 (some 500000)) ∧ demo.Inv ∧
    ∃ s', exec (.tevReset 0) demo = .next s' := ⟨rfl, demo_inv, _, rfl⟩
theorem test_witness_ResetIsIdempotent : (∃ s', exec (.tevReset 0) demo = .next s') ∧ ∃ s', exec .uevReset demo = .next s' :=
  ⟨⟨_, rfl⟩, _, rfl⟩

theorem test_witness_ReceiveReadReleasesTheSlot : ∃ s', exec .urdRxdatax demo = .next s' := ⟨_, rfl⟩
theorem test_witness_UartFlagAndEnableReadTheCells : demo.Inv ∧ (∃ s', exec (.uwrIen 0xFFFFFFFF) demo = .next s') ∧
    (∃ s', exec .urdRxdatax demo = .next s') ∧ 31 ≠ 2 ∧ (∀ v, Instr.urdRxdatax ≠ .uwrIfs v ∧ Instr.urdRxdatax ≠ .uwrIfc v ∧ Instr.urdRxdatax ≠ .uwrIen v) ∧
    Instr.urdRxdatax ≠ .uevReset := ⟨demo_inv, ⟨_, rfl⟩, ⟨_, rfl⟩, by decide, by simp, by decide⟩
/-- The invariant, the hypothesis of `StatusReadsReadyWithOrWithoutData`, `UnmatchedUartReadsReturnZero`, `UartEnableWriteStoresTheMask`,
`IgnoredWritesChangeNothing` and `UartUnknownWriteChangesNothing`, with and without a transport. -/
theorem test_witness_uart_invariant : demo.Inv ∧ demoDetached.Inv ∧ demo.timers[1]? = some (Timer.initial 1000) := ⟨demo_inv, demoDetached_inv, rfl⟩
theorem test_witness_UartWritesNeverFailOrTouchReceiveCells : (∃ s', exec (.uwrTxdata 0x141) demo = .next s') ∧
    (∃ s', exec (.uwrIfs 5) demo = .next s') ∧ (∃ s', exec (.uwrIfc 5) demo = .next s') ∧ (∃ s', exec (.uwrIen 5) demo = .next s') ∧ 0 < 32 ∧ 31 < 32 :=
  ⟨⟨_, rfl⟩, ⟨_, rfl⟩, ⟨_, rfl⟩, ⟨_, rfl⟩, by decide, by decide⟩
theorem test_witness_UartFlagClearWriteKeepsTheReceiveFlag : demo.uart.status.getLsbD 7 = true ∧ (∃ s', exec (.uwrIfc 4) demo = .next s') ∧
    (∃ s', exec .urdRxdatax demo = .next s') ∧ (∃ s', exec (.uwrIen 0) demo = .next s') ∧ demo.uart.iflag.getLsbD 2 = true ∧
    Instr.uwrIfc 4 ≠ .urdRxdatax ∧ Instr.uwrIfc 4 ≠ .uevReset := ⟨by decide, ⟨_, rfl⟩, ⟨_, rfl⟩, ⟨_, rfl⟩, by decide⟩
theorem test_witness_TransmitWriteSendsTheLowByte : demo.Inv ∧ ∃ s', exec (.uwrTxdata 0x141) demo = .next s' := ⟨demo_inv, _, rfl⟩
theorem test_witness_CanReceiveAnswersWhetherTheSlotIsFree : demo.config.transportAttached = true ∧ demo.uart.status.getLsbD 7 = true ∧
    (∃ s', exec .uevReset demo = .next s') ∧ (∃ s', exec .urdRxdatax demo = .next s') ∧ (∃ s', exec .uevBreak demo = .next s') ∧
    (∃ s', exec (.uevRx 1) demoEmpty = .next s') ∧ Instr.uevBreak ≠ .uevReset ∧ Instr.uevBreak ≠ .urdRxdatax :=
  ⟨by decide, by decide, ⟨_, rfl⟩, ⟨_, rfl⟩, ⟨_, rfl⟩, ⟨_, rfl⟩, by decide, by decide⟩
theorem test_witness_ReceivedByteFillsTheSlot : demoEmpty.config.transportAttached = true ∧ demoEmpty.uart.status.getLsbD 7 = false := by decide
theorem test_witness_BreakStoresTheFramingError : demo.config.transportAttached = true ∧ demo.config.breakByte = 0x00 ∧
    ∃ s', exec .uevBreak demo = .next s' := ⟨by decide, by decide, _, rfl⟩
theorem test_witness_NoTransportMeansNoTraffic : demoDetached.config.transportAttached = false ∧ ∃ s', exec (.uwrTxdata 1) demoDetached = .next s' :=
  ⟨by decide, _, rfl⟩
theorem test_witness_UartResetLeavesReadyAndEmpty : (∃ s', exec .uevReset demo = .next s') ∧ demo.config.transportAttached = true :=
  ⟨⟨_, rfl⟩, by decide⟩
end

section
/-! PROOFS. What each operation reads and writes (R34), said once per kind of operation, and the rules of 10_state.md that follow:
the derived receive flag (R30), no state shared between units (R34), the append-only stream (R32). -/

namespace Sys2Proof.Machine

/-! ### Operations on one Timer unit -/

/-- Two states in which a transition of Timer `t` reads the same (R34). -/
structure AgreeOnTimer (t : Nat) (s₁ s₂ : State) : Prop where
  unit : s₁.timers[t]? = s₂.timers[t]?
  now : s₁.now = s₂.now
  config : s₁.config = s₂.config

/-- `run` replaces Timer `t` and answers, both by what `AgreeOnTimer` compares, and does nothing else. -/
def LocalToTimer (t : Nat) (run : State → Result) : Prop :=
  ∀ s₁ s₂ s₁', AgreeOnTimer t s₁ s₂ → run s₁ = .next s₁' →
    ∃ T r, s₁' = (s₁.setTimer t T).respond r ∧ run s₂ = .next ((s₂.setTimer t T).respond r)

theorem readTimer_local (t : Nat) (answer : State → Timer → Word)
    (h : ∀ s₁ s₂, AgreeOnTimer t s₁ s₂ → answer s₁ = answer s₂) :
    LocalToTimer t (fun s => readTimer t (answer s) s) := by
  intro s₁ s₂ s₁' ha e
  obtain ⟨T, hT, rfl⟩ := (readTimer_eq_next _ _ _ _).mp e
  have hT₂ : s₂.timers[t]? = some T := ha.unit ▸ hT
  refine ⟨T, .word (answer s₁ T), ?_, ?_⟩
  · rw [State.setTimer_self s₁ t T hT]
  · rw [State.setTimer_self s₂ t T hT₂, h s₁ s₂ ha]
    exact readTimer_of t _ s₂ T hT₂

theorem updateTimer_local (t : Nat) (change : State → Timer → Timer)
    (h : ∀ s₁ s₂, AgreeOnTimer t s₁ s₂ → change s₁ = change s₂) :
    LocalToTimer t (fun s => updateTimer t (change s) s) := by
  intro s₁ s₂ s₁' ha e
  obtain ⟨T, hT, rfl⟩ := (updateTimer_eq_next _ _ _ _).mp e
  refine ⟨change s₁ T, .nothing, rfl, ?_⟩
  rw [h s₁ s₂ ha]
  exact updateTimer_of t _ s₂ T (ha.unit ▸ hT)

theorem execTevFire_local (t : Nat) : LocalToTimer t (execTevFire t) := by
  intro s₁ s₂ s₁' ha e
  obtain ⟨T, d, hT, hd, hle, rfl⟩ := (execTevFire_eq_next _ _ _).mp e
  exact ⟨T.expire, .nothing, rfl,
    (execTevFire_eq_next _ _ _).mpr ⟨T, d, ha.unit ▸ hT, hd, ha.now ▸ hle, rfl⟩⟩

/-- R34 for every Timer operation. -/
theorem exec_local_of_timer {i : Instr} {t : Nat} (hi : i.target = .timer t) : LocalToTimer t (exec i) := by
  cases i with
  | trdCtrl | trdCmd | trdIen | trdIf | trdIfs | trdIfc | trdTop | trdUnk =>
    cases hi; exact readTimer_local t _ fun _ _ _ => rfl
  | trdCnt => cases hi; exact readTimer_local t _ fun _ _ ha => by rw [ha.config, ha.now]
  | twrCtrl | twrIen | twrIf | twrIfs | twrTop | twrCnt | twrUnk | tevReset =>
    cases hi; exact updateTimer_local t _ fun _ _ _ => rfl
  | twrCmd | twrIfc => cases hi; exact updateTimer_local t _ fun _ _ ha => by rw [ha.config, ha.now]
  | tevFire => cases hi; exact execTevFire_local t
  | _ => cases hi

/-- A Timer operation that completes replaced its unit and answered. -/
theorem exec_timer_frame {i : Instr} {t : Nat} {s s' : State} (hi : i.target = .timer t) (e : exec i s = .next s') :
    ∃ T r, s' = (s.setTimer t T).respond r := by
  obtain ⟨T, r, rfl, -⟩ := exec_local_of_timer hi s s s' ⟨rfl, rfl, rfl⟩ e
  exact ⟨T, r, rfl⟩

/-! ### Operations on the UART -/

/-- Two states in which a transition of the UART reads the same (R34). -/
structure AgreeOnUart (s₁ s₂ : State) : Prop where
  uart : s₁.uart = s₂.uart
  tx : s₁.tx = s₂.tx
  config : s₁.config = s₂.config

/-- `run` replaces the UART and the stream and answers, all by what `AgreeOnUart` compares, and does nothing else. -/
def LocalToUart (run : State → Result) : Prop :=
  ∀ s₁ s₂ s₁', AgreeOnUart s₁ s₂ → run s₁ = .next s₁' →
    ∃ U tx r, s₁' = { s₁ with uart := U, tx := tx, response := r } ∧
      run s₂ = .next { s₂ with uart := U, tx := tx, response := r }

/-- A UART transition that always completes and leaves the stream alone. -/
theorem setUart_respond_local (U : State → Uart) (r : State → Response)
    (h : ∀ s₁ s₂, AgreeOnUart s₁ s₂ → U s₁ = U s₂ ∧ r s₁ = r s₂) :
    LocalToUart (fun s => .next ((s.setUart (U s)).respond (r s))) := by
  rintro s₁ s₂ s₁' ha ⟨⟩
  obtain ⟨hU, hr⟩ := h s₁ s₂ ha
  refine ⟨U s₁, s₁.tx, r s₁, rfl, ?_⟩
  rw [hU, hr, ha.tx]; rfl

theorem readUart_local (answer : Uart → Word) : LocalToUart (readUart answer) :=
  setUart_respond_local (fun s => s.uart) _ fun _ _ ha => by simp only [ha.uart, and_self]

/-- A transport event happens in both states or in neither. -/
theorem transportEvent_local {event : State → Result} (h : LocalToUart event) :
    LocalToUart (transportEvent event) := by
  intro s₁ s₂ s₁' ha e
  obtain ⟨hatt, e⟩ := (transportEvent_eq_next _ _ _).mp e
  obtain ⟨U, tx, r, hs, e₂⟩ := h s₁ s₂ s₁' ha e
  exact ⟨U, tx, r, hs, (transportEvent_eq_next _ _ _).mpr ⟨ha.config ▸ hatt, e₂⟩⟩

/-- R157 and R159: the gate, too, is the UART's own. -/
theorem execUevRx_local (byte : Byte) : LocalToUart (execUevRx byte) := by
  intro s₁ s₂ s₁' ha e
  obtain ⟨hatt, hfree, rfl⟩ := (execUevRx_eq_next _ _ _).mp e
  refine ⟨(s₁.uart.receive (zext32 byte)).update, s₁.tx, .nothing, rfl, ?_⟩
  exact (execUevRx_eq_next _ _ _).mpr ⟨ha.config ▸ hatt, ha.uart ▸ hfree, by rw [ha.uart, ha.tx]; rfl⟩

/-- Sending changes the stream alone. -/
theorem State.send_eq (s : State) (b : Byte) :
    s.send b = { s with tx := if s.config.transportAttached then s.tx ++ [b] else s.tx } := by
  unfold State.send; split <;> rfl

theorem execUwrTxdata_local (value : Word) : LocalToUart (execUwrTxdata value) := by
  rintro s₁ s₂ s₁' ha ⟨⟩
  refine ⟨s₁.uart.update, (s₁.send (txByte value)).tx, .nothing, ?_, ?_⟩
  · rw [State.send_eq]; rfl
  · rw [State.send_tx, ha.uart, ha.tx, ha.config, execUwrTxdata, State.send_eq]; rfl

/-- R34 for every UART operation. -/
theorem exec_local_of_uart {i : Instr} (hi : i.target = .uart) : LocalToUart (exec i) := by
  cases i with
  | urdStatus | urdIf | urdIen => exact readUart_local _
  | urdCmd | urdRxdatax | urdTxdata | urdIfs | urdIfc | urdUnk | uwrCmd | uwrStatus | uwrRxdatax | uwrIf | uwrIfs | uwrIfc
  | uwrIen | uwrUnk | uevReset => exact setUart_respond_local _ _ fun _ _ ha => by simp only [ha.uart, and_self]
  | uwrTxdata value => exact execUwrTxdata_local value
  | uevCanrx =>
    exact transportEvent_local <| setUart_respond_local (fun s => s.uart) _ fun _ _ ha => by simp only [ha.uart, and_self]
  | uevRx byte => exact execUevRx_local byte
  | uevBreak =>
    exact transportEvent_local <| setUart_respond_local _ _ fun _ _ ha => by simp only [ha.uart, ha.config, and_self]
  | _ => cases hi

/-- A UART operation that completes replaced the UART and the stream and answered. -/
theorem exec_uart_frame {i : Instr} {s s' : State} (hi : i.target = .uart) (e : exec i s = .next s') :
    ∃ U tx r, s' = { s with uart := U, tx := tx, response := r } := by
  obtain ⟨U, tx, r, rfl, -⟩ := exec_local_of_uart hi s s s' ⟨rfl, rfl, rfl⟩ e
  exact ⟨U, tx, r, rfl⟩

/-- R156: the query happens exactly with a transport attached, and only answers. -/
theorem execUevCanrx_eq_next (s s' : State) : execUevCanrx s = .next s' ↔
    s.config.transportAttached = true ∧ s' = s.respond (.bool (!s.uart.hasData)) := by
  rw [execUevCanrx, transportEvent_eq_next, Host.Outcome.next.injEq, eq_comm (b := s')]

/-- R158: a break happens exactly with a transport attached, whatever waits. -/
theorem execUevBreak_eq_next (s s' : State) : execUevBreak s = .next s' ↔
    s.config.transportAttached = true ∧
      s' = (s.setUart (s.uart.receive (framingError ||| zext32 s.config.breakByte)).update).respond .nothing := by
  rw [execUevBreak, transportEvent_eq_next, updateUart, Host.Outcome.next.injEq, eq_comm (b := s')]

/-- What a UART operation can do: a plain read or the query only answers; a `TXDATA` write sends a byte; every other one leaves the
stream; and all but the first kind end with the update step (R155). -/
theorem exec_uart_cases {i : Instr} {s s' : State} (hi : i.target = .uart) (e : exec i s = .next s') :
    (i ∈ [.urdStatus, .urdIf, .urdIen, .uevCanrx] ∧ ∃ r, s' = s.respond r) ∨
    (∃ v, i = .uwrTxdata v ∧ s' = ((s.send (txByte v)).setUart s.uart.update).respond .nothing) ∨
    (∃ (U : Uart) (r : Response), s' = (s.setUart U.update).respond r) := by
  cases i with
  | urdStatus | urdIf | urdIen => cases e; exact .inl ⟨by simp, _, rfl⟩
  | uevCanrx =>
    obtain ⟨-, rfl⟩ := (execUevCanrx_eq_next _ _).mp e
    exact .inl ⟨by simp, _, rfl⟩
  | uwrTxdata v =>
    cases e
    exact .inr (.inl ⟨v, rfl, by rw [State.send_uart]⟩)
  | urdCmd | urdRxdatax | urdTxdata | urdIfs | urdIfc | urdUnk | uwrCmd | uwrStatus | uwrRxdatax | uwrIf | uwrIfs | uwrIfc
  | uwrIen | uwrUnk | uevReset => cases e; exact .inr (.inr ⟨_, _, rfl⟩)
  | uevRx byte =>
    obtain ⟨-, -, rfl⟩ := (execUevRx_eq_next _ _ _).mp e
    exact .inr (.inr ⟨_, _, rfl⟩)
  | uevBreak =>
    obtain ⟨-, rfl⟩ := (execUevBreak_eq_next _ _).mp e
    exact .inr (.inr ⟨_, _, rfl⟩)
  | _ => cases hi

/-! ### The advance of time, and what follows for every operation -/

/-- The operation on the clock that completes moved `now` and answered nothing. -/
theorem exec_clock_frame {i : Instr} {s s' : State} (hi : i.target = .clock) (e : exec i s = .next s') :
    ∃ time, i = .envAdvance time ∧ s' = { s with now := time, response := .nothing } := by
  cases i with
  | envAdvance time =>
    obtain ⟨-, -, rfl⟩ := (execEnvAdvance_eq_next _ _ _).mp e
    exact ⟨time, rfl, rfl⟩
  | _ => cases hi

/-- R35: no operation changes the shared parameters. -/
theorem exec_config {i : Instr} {s s' : State} (e : exec i s = .next s') : s'.config = s.config := by
  cases hi : i.target with
  | timer t => obtain ⟨T, r, rfl⟩ := exec_timer_frame hi e; rfl
  | uart => obtain ⟨U, tx, r, rfl⟩ := exec_uart_frame hi e; rfl
  | clock => obtain ⟨time, -, rfl⟩ := exec_clock_frame hi e; rfl

/-- No operation outside the UART touches it or the stream. -/
theorem exec_keeps_uart {i : Instr} {s s' : State} (hi : i.target ≠ .uart) (e : exec i s = .next s') :
    s'.uart = s.uart ∧ s'.tx = s.tx := by
  cases ht : i.target with
  | timer t => obtain ⟨T, r, rfl⟩ := exec_timer_frame ht e; exact ⟨rfl, rfl⟩
  | uart => exact absurd ht hi
  | clock => obtain ⟨time, -, rfl⟩ := exec_clock_frame ht e; exact ⟨rfl, rfl⟩

/-! ### The receive flag (R30) -/

/-- The update step makes R30 hold. -/
theorem Uart.update_derived (U : Uart) : U.update.iflag.getLsbD 2 = U.update.status.getLsbD 7 := by
  rw [Uart.getLsbD_update, if_pos rfl, Uart.update_status]

/-- Every UART operation but the plain reads and the query ends with the update step. -/
theorem exec_uart_updated {i : Instr} {s s' : State} (hi : i.target = .uart)
    (hn : i ∉ [.urdStatus, .urdIf, .urdIen, .uevCanrx]) (e : exec i s = .next s') : ∃ U : Uart, s'.uart = U.update := by
  obtain ⟨hmem, -⟩ | ⟨v, -, rfl⟩ | ⟨U, r, rfl⟩ := exec_uart_cases hi e
  · exact absurd hmem hn
  · exact ⟨s.uart, rfl⟩
  · exact ⟨U, rfl⟩

/-- An operation leaves the UART as it is, or ends with the update step. -/
theorem exec_uart_kept_or_updated {i : Instr} {s s' : State} (e : exec i s = .next s') :
    s'.uart = s.uart ∨ ∃ U : Uart, s'.uart = U.update := by
  by_cases hi : i.target = .uart
  · obtain ⟨-, r, rfl⟩ | ⟨v, -, rfl⟩ | ⟨U, r, rfl⟩ := exec_uart_cases hi e
    · exact .inl rfl
    · exact .inr ⟨s.uart, rfl⟩
    · exact .inr ⟨U, rfl⟩
  · exact .inl (exec_keeps_uart hi e).1

/-- Settles O11: an operation leaves the UART as it is or ends with the update step, which makes the flag equal. -/
theorem receiveFlagEqualsDataValid : Obligations.ReceiveFlagEqualsDataValid := by
  refine ⟨fun i s s' e hs => ?_, fun i s s' e hi hn => ?_⟩
  · obtain hU | ⟨U, hU⟩ := exec_uart_kept_or_updated e
    · rw [hU]; exact hs
    · rw [hU]; exact U.update_derived
  · obtain ⟨U, hU⟩ := exec_uart_updated hi hn e
    rw [hU]; exact U.update_derived

/-! ### One unit at a time (R34) -/

/-- Settles O13, by the locality of every Timer operation and of every UART operation. -/
theorem transitionsTouchOneUnitOnly : Obligations.TransitionsTouchOneUnitOnly := by
  refine ⟨fun t i s₁ s₂ s₁' hi hunit hnow hconfig e => ?_, fun i s₁ s₂ s₁' hi huart htx hconfig e => ?_⟩
  · obtain ⟨T, r, rfl, e₂⟩ := exec_local_of_timer hi s₁ s₂ s₁' ⟨hunit, hnow, hconfig⟩ e
    refine ⟨⟨_, e₂, ?_, rfl⟩, rfl, rfl, rfl, ?_, fun u hu => ?_⟩
    · simp only [State.respond_timers, State.setTimer_timers, getElem?_set_map, hunit]
    · exact List.length_set
    · exact List.getElem?_set_ne hu.symm
  · obtain ⟨U, tx, r, rfl, e₂⟩ := exec_local_of_uart hi s₁ s₂ s₁' ⟨huart, htx, hconfig⟩ e
    exact ⟨⟨_, e₂, rfl, rfl, rfl⟩, rfl, rfl⟩

/-! ### The transmit stream (R32) -/

/-- An operation keeps the stream, or is a `TXDATA` write with a transport attached and appends its low byte. -/
theorem exec_tx_cases {i : Instr} {s s' : State} (e : exec i s = .next s') :
    s'.tx = s.tx ∨ (s.config.transportAttached = true ∧ ∃ v, i = .uwrTxdata v ∧ s'.tx = s.tx ++ [txByte v]) := by
  by_cases hi : i.target = .uart
  · obtain ⟨-, r, rfl⟩ | ⟨v, hv, rfl⟩ | ⟨U, r, rfl⟩ := exec_uart_cases hi e
    · exact .inl rfl
    · simp only [State.respond_tx, State.setUart_tx, State.send_tx]
      split
      · next hatt => exact .inr ⟨hatt, v, hv, rfl⟩
      · exact .inl rfl
    · exact .inl rfl
  · exact .inl (exec_keeps_uart hi e).2

/-- The parameters stay, and with no transport so does the stream. -/
def StreamKept (s s' : State) : Prop :=
  s'.config = s.config ∧ (s.config.transportAttached = false → s'.tx = s.tx)

theorem StreamKept.trans {a b c : State} (hab : StreamKept a b) (hbc : StreamKept b c) : StreamKept a c := by
  obtain ⟨hconfig, htx⟩ := hab
  obtain ⟨hconfig', htx'⟩ := hbc
  exact ⟨hconfig'.trans hconfig, fun h => (htx' (hconfig ▸ h)).trans (htx h)⟩

theorem exec_streamKept {i : Instr} {s s' : State} (e : exec i s = .next s') : StreamKept s s' := by
  refine ⟨exec_config e, fun hdet => ?_⟩
  obtain htx | ⟨hatt, -⟩ := exec_tx_cases e
  · exact htx
  · simp [hdet] at hatt

theorem runAll_streamKept {l : List Instr} {s s' : State} (e : runAll l s = .next s') : StreamKept s s' :=
  runAll_induct StreamKept (fun _ => True) (fun _ => ⟨rfl, fun _ => rfl⟩) (fun _ _ _ => StreamKept.trans)
    (fun _ _ _ _ => exec_streamKept) l s s' (fun _ _ => trivial) e

/-- Settles O18: only an attached `TXDATA` write appends, so with no transport no run sends anything. -/
theorem transmitStreamIsAppendOnly : Obligations.TransmitStreamIsAppendOnly := by
  refine ⟨fun i s s' e => ?_, fun l s s' hdet hempty e => ?_⟩
  · simpa only [← txByte_eq] using exec_tx_cases e
  · obtain ⟨-, htx⟩ := runAll_streamKept e
    rw [htx hdet, hempty]

end Sys2Proof.Machine
end

section
/-! PROOFS. The decoder answers `UNK` at every offset that is not a register's (R61), said once per peripheral and direction, and the
table of R63 and R64. -/

namespace Sys2Proof

theorem decode_timerRead_of_not_mem {offset : Nat} (h : offset ∉ timerOffsets) (t : Nat) :
    decode (.timerRead t offset) = .trdUnk t offset := by
  simp only [timerOffsets, List.mem_cons, List.not_mem_nil, or_false, not_or] at h
  simp only [decode, decodeTimerRead, h, if_false]

theorem decode_timerWrite_of_not_mem {offset : Nat} (h : offset ∉ timerOffsets) (t : Nat) (value : Word) :
    decode (.timerWrite t offset value) = .twrUnk t offset value := by
  simp only [timerOffsets, List.mem_cons, List.not_mem_nil, or_false, not_or] at h
  simp only [decode, decodeTimerWrite, h, if_false]

theorem decode_uartRead_of_not_mem {offset : Nat} (h : offset ∉ uartOffsets) :
    decode (.uartRead offset) = .urdUnk offset := by
  simp only [uartOffsets, List.mem_cons, List.not_mem_nil, or_false, not_or] at h
  simp only [decode, decodeUartRead, h, if_false]

theorem decode_uartWrite_of_not_mem {offset : Nat} (h : offset ∉ uartOffsets) (value : Word) :
    decode (.uartWrite offset value) = .uwrUnk offset value := by
  simp only [uartOffsets, List.mem_cons, List.not_mem_nil, or_false, not_or] at h
  simp only [decode, decodeUartWrite, h, if_false]

/-- Settles O1: each row of the register maps decodes by evaluation, and every other offset misses all eight comparisons. -/
theorem offsetsSelectOperationsByExactMatch : Obligations.OffsetsSelectOperationsByExactMatch := by
  refine ⟨fun t => ?timerReads, fun t v => ?timerWrites, ?uartReads, fun v => ?uartWrites,
    fun t o v h => ?timerUnknown, fun o v h => ?uartUnknown⟩
  case timerReads | timerWrites | uartReads | uartWrites => rfl
  case timerUnknown => exact ⟨decode_timerRead_of_not_mem h t, decode_timerWrite_of_not_mem h t v⟩
  case uartUnknown => exact ⟨decode_uartRead_of_not_mem h, decode_uartWrite_of_not_mem h v⟩

end Sys2Proof
end

section
/-! PROOFS. What every operation leaves in a Timer unit, said once for the operations of the unit and once for all others, and the
Timer reads that follow (40_timer_reads.md). -/

namespace Sys2Proof.Machine

/-! ### The unit after an operation -/

/-- The unit an operation of that unit leaves, at the time `now`; `exec_own_unit` ties it to `exec`. -/
def Timer.after (vtu now : Nat) (i : Instr) (T : Timer) : Timer :=
  match i with
  | .twrCtrl _ v => { T with ctrl := v, rate := rateOf T.baseClock v }
  | .twrCmd _ v => (T.startIf (startPulse v) vtu now).stopIf (stopPulse v)
  | .twrIen _ v => { T with ien := v }
  | .twrIfs _ v => { T with iflag := setBits T.iflag v }
  | .twrIfc _ v => Timer.rearm vtu now { T with iflag := clearBits T.iflag v }
  | .twrTop _ v => { T with top := v }
  | .twrCnt _ v => { T with cnt := v }
  | .tevFire _ => T.expire
  | .tevReset _ => T.resetUnit
  | _ => T

/-- A Timer transition that completes leaves the changed unit in place. -/
theorem updateTimer_unit {t : Nat} {change : Timer → Timer} {s s' : State} {T : Timer} (hT : s.timers[t]? = some T)
    (e : updateTimer t change s = .next s') : s'.timers[t]? = some (change T) := by
  rw [updateTimer_of t change s T hT] at e
  cases e
  exact getElem?_set_unit _ t T _ hT

/-- An operation of Timer `t` leaves the unit `Timer.after` gives. -/
theorem exec_own_unit {i : Instr} {t : Nat} {s s' : State} {T : Timer} (hi : i.target = .timer t)
    (hT : s.timers[t]? = some T) (e : exec i s = .next s') : s'.timers[t]? = some (T.after s.config.vtu s.now i) := by
  cases i with
  | trdCtrl | trdCmd | trdIen | trdIf | trdIfs | trdIfc | trdTop | trdCnt | trdUnk =>
    obtain ⟨-, -, rfl⟩ := (readTimer_eq_next _ _ _ _).mp e
    exact hT
  | twrCtrl | twrCmd | twrIen | twrIf | twrIfs | twrIfc | twrTop | twrCnt | twrUnk | tevReset =>
    cases hi; exact updateTimer_unit hT e
  | tevFire =>
    cases hi
    obtain ⟨T₁, d, hT₁, -, -, rfl⟩ := (execTevFire_eq_next _ _ _).mp e
    cases hT.symm.trans hT₁
    exact getElem?_set_unit _ t T _ hT
  | _ => cases hi

/-- R34: an operation of anything else leaves Timer `t` as it is. -/
theorem exec_other_unit {i : Instr} {t : Nat} {s s' : State} (hi : i.target ≠ .timer t) (e : exec i s = .next s') :
    s'.timers[t]? = s.timers[t]? := by
  cases ht : i.target with
  | timer u =>
    have hu : u ≠ t := fun h => hi (h ▸ ht)
    obtain ⟨T, r, rfl⟩ := exec_timer_frame ht e
    exact List.getElem?_set_ne hu
  | uart => obtain ⟨U, tx, r, rfl⟩ := exec_uart_frame ht e; rfl
  | clock => obtain ⟨time, -, rfl⟩ := exec_clock_frame ht e; rfl

/-- R91, R200: no other operation of the unit changes `CTRL`. -/
theorem Timer.after_ctrl {i : Instr} {t : Nat} (hi : i.target = .timer t) (hreset : i ≠ .tevReset t)
    (hwrite : ∀ v, i ≠ .twrCtrl t v) (vtu now : Nat) (T : Timer) : (T.after vtu now i).ctrl = T.ctrl := by
  cases i with
  | twrCtrl u v => cases hi; exact absurd rfl (hwrite v)
  | tevReset u => cases hi; exact absurd rfl hreset
  | twrCmd | twrIfc => simp only [Timer.after, Timer.command_eq, Timer.rearm_eq]
  | _ => rfl

/-- R92, R200: no other operation of the unit changes `IEN`. -/
theorem Timer.after_ien {i : Instr} {t : Nat} (hi : i.target = .timer t) (hreset : i ≠ .tevReset t)
    (hwrite : ∀ v, i ≠ .twrIen t v) (vtu now : Nat) (T : Timer) : (T.after vtu now i).ien = T.ien := by
  cases i with
  | twrIen u v => cases hi; exact absurd rfl (hwrite v)
  | tevReset u => cases hi; exact absurd rfl hreset
  | twrCmd | twrIfc => simp only [Timer.after, Timer.command_eq, Timer.rearm_eq]
  | _ => rfl

/-! ### A read after an operation -/

section ReadAfter

variable {i : Instr} {t : Nat} {s s' : State} {T : Timer} (answer : Timer → Word)

/-- A read after an operation of the unit answers from the unit that operation left. -/
theorem readTimer_after_own (hi : i.target = .timer t) (hT : s.timers[t]? = some T) (e : exec i s = .next s') :
    readTimer t answer s' = .next (s'.respond (.word (answer (T.after s.config.vtu s.now i)))) :=
  readTimer_of t answer s' _ (exec_own_unit hi hT e)

/-- A read answers what it did before the operation, if no operation of the unit changes the answer. -/
theorem readTimer_after_of_kept (hT : s.timers[t]? = some T) (e : exec i s = .next s')
    (hkept : i.target = .timer t → answer (T.after s.config.vtu s.now i) = answer T) :
    readTimer t answer s' = .next (s'.respond (.word (answer T))) := by
  by_cases hi : i.target = .timer t
  · rw [readTimer_after_own answer hi hT e, hkept hi]
  · exact readTimer_of t answer s' T ((exec_other_unit hi e).trans hT)

end ReadAfter

/-- Settles O21: the two cells are read as they stand, the writes and the reset fix them, and `Timer.after` keeps them otherwise. -/
theorem controlAndEnableReadBackAsWritten : Obligations.ControlAndEnableReadBackAsWritten := by
  intro t s T hT
  refine ⟨?ctrlRead, ?ienRead, fun v s' e => ?ctrlWritten, fun v s' e => ?ienWritten, fun s' e => ?reset,
    fun i s' e hreset => ⟨fun hwrite => ?ctrlKept, fun hwrite => ?ienKept⟩⟩
  case ctrlRead | ienRead => exact readTimer_of t _ s T hT
  case ctrlWritten => exact readTimer_after_own Timer.ctrl rfl hT e
  case ienWritten => exact readTimer_after_own Timer.ien rfl hT e
  case reset => exact ⟨readTimer_after_own Timer.ctrl rfl hT e, readTimer_after_own Timer.ien rfl hT e⟩
  case ctrlKept =>
    exact readTimer_after_of_kept Timer.ctrl hT e fun hi => Timer.after_ctrl hi hreset hwrite _ _ T
  case ienKept =>
    exact readTimer_after_of_kept Timer.ien hT e fun hi => Timer.after_ien hi hreset hwrite _ _ T

/-! ### Unknown offsets (R87) -/

/-- R87's offsets are none of the register map's. -/
theorem not_mem_timerOffsets {o : Nat} (h : o ∈ [0x08, 0x20] ∨ 0x24 < o ∨ o % 4 ≠ 0) : o ∉ timerOffsets := by
  simp only [timerOffsets, List.mem_cons, List.not_mem_nil, or_false] at h ⊢
  omega

/-- Settles O23: the listed offsets decode to the unknown read, which answers 0 from any unit. -/
theorem timerUnknownReadReturnsZero : Obligations.TimerUnknownReadReturnsZero := by
  intro t o s T hT
  have hread : exec (.trdUnk t o) s = .next { s with response := .word 0 } := readTimer_of t _ s T hT
  refine ⟨hread, fun ho => ?_⟩
  rw [decode_timerRead_of_not_mem (not_mem_timerOffsets ho)]
  exact hread

end Sys2Proof.Machine
end

section
/-! PROOFS. Timer writes that do nothing (41_timer_writes.md R101). -/

namespace Sys2Proof.Machine

/-- A transition that keeps the unit keeps the machine. -/
theorem updateTimer_id_of (t : Nat) (s : State) (T : Timer) (hT : s.timers[t]? = some T) :
    updateTimer t (fun T => T) s = .next (s.respond .nothing) := by
  rw [updateTimer_of t _ s T hT, State.setTimer_self s t T hT]

/-- Settles O33: the listed offsets decode to the unknown write, which puts the unit back as it was. -/
theorem timerUnknownWriteChangesNothing : Obligations.TimerUnknownWriteChangesNothing := by
  intro t o v s T hT
  have hwrite : exec (.twrUnk t o v) s = .next { s with response := .nothing } := updateTimer_id_of t s T hT
  refine ⟨hwrite, fun ho => ?_⟩
  rw [decode_timerWrite_of_not_mem (not_mem_timerOffsets ho)]
  exact hwrite

end Sys2Proof.Machine
end

section
/-! PROOFS. What every operation leaves in the UART, said once for all operations, and the UART reads that follow
(43_uart_reads.md). -/

namespace Sys2Proof.Machine

/-! ### The UART after an operation -/

/-- The UART an operation leaves, with `BREAK_BYTE` given; `exec_uart_after` ties it to `exec`. -/
def Uart.after (breakByte : Byte) (i : Instr) (U : Uart) : Uart :=
  match i with
  | .urdRxdatax => U.release.update
  | .uwrIfs v => Uart.update { U with iflag := setBits U.iflag v }
  | .uwrIfc v => Uart.update { U with iflag := clearBits U.iflag v }
  | .uwrIen v => Uart.update { U with ien := v }
  | .uevRx byte => (U.receive (zext32 byte)).update
  | .uevBreak => (U.receive (framingError ||| zext32 breakByte)).update
  | .uevReset => U.zeroed.update
  | .urdCmd | .urdTxdata | .urdIfs | .urdIfc | .urdUnk _
  | .uwrCmd _ | .uwrStatus _ | .uwrRxdatax _ | .uwrTxdata _ | .uwrIf _ | .uwrUnk _ _ => U.update
  | _ => U

/-- An operation that completes leaves the UART `Uart.after` gives. -/
theorem exec_uart_after {i : Instr} {s s' : State} (e : exec i s = .next s') :
    s'.uart = s.uart.after s.config.breakByte i := by
  cases i with
  | uwrTxdata v => cases e; exact congrArg Uart.update (State.send_uart s (txByte v))
  | uevCanrx => obtain ⟨-, rfl⟩ := (execUevCanrx_eq_next _ _).mp e; rfl
  | uevRx byte => obtain ⟨-, -, rfl⟩ := (execUevRx_eq_next _ _ _).mp e; rfl
  | uevBreak => obtain ⟨-, rfl⟩ := (execUevBreak_eq_next _ _).mp e; rfl
  | urdCmd | urdStatus | urdRxdatax | urdTxdata | urdIf | urdIfs | urdIfc | urdIen | urdUnk
  | uwrCmd | uwrStatus | uwrRxdatax | uwrIf | uwrIfs | uwrIfc | uwrIen | uwrUnk | uevReset => cases e; rfl
  | trdCtrl | trdCmd | trdIen | trdIf | trdIfs | trdIfc | trdTop | trdCnt | trdUnk
  | twrCtrl | twrCmd | twrIen | twrIf | twrIfs | twrIfc | twrTop | twrCnt | twrUnk
  | tevFire | tevReset | envAdvance => exact (exec_keeps_uart (by simp [Instr.target]) e).1

section Kept

variable {i : Instr} (hreset : i ≠ .uevReset) (breakByte : Byte) (U : Uart)
include hreset

/-- R142, R143, R201: no other operation moves a bit of `IF` that the update step does not derive. -/
theorem Uart.getLsbD_after_iflag (hset : ∀ v, i ≠ .uwrIfs v) (hclear : ∀ v, i ≠ .uwrIfc v) {k : Nat} (hk : k ≠ 2) :
    (U.after breakByte i).iflag.getLsbD k = U.iflag.getLsbD k := by
  have hupdate : ∀ V : Uart, V.update.iflag.getLsbD k = V.iflag.getLsbD k := fun V =>
    (V.getLsbD_update k).trans (if_neg hk)
  cases i with
  | uwrIfs v => exact absurd rfl (hset v)
  | uwrIfc v => exact absurd rfl (hclear v)
  | uevReset => exact absurd rfl hreset
  | urdRxdatax | uwrIen | uevRx | uevBreak | urdCmd | urdTxdata | urdIfs | urdIfc | urdUnk
  | uwrCmd | uwrStatus | uwrRxdatax | uwrTxdata | uwrIf | uwrUnk => exact hupdate _
  | _ => rfl

/-- R141, R201: no other operation changes `IEN`. -/
theorem Uart.after_ien (hwrite : ∀ v, i ≠ .uwrIen v) : (U.after breakByte i).ien = U.ien := by
  cases i with
  | uwrIen v => exact absurd rfl (hwrite v)
  | uevReset => exact absurd rfl hreset
  | _ => rfl

end Kept

/-! ### The reads of `IF` and `IEN` (R128, R129) -/

/-- An `IEN` read after an operation answers from the UART that operation left. -/
theorem execUrdIen_after {i : Instr} {s s' : State} (e : exec i s = .next s') :
    execUrdIen s' = .next (s'.respond (.word (s.uart.after s.config.breakByte i).ien)) := by
  rw [← exec_uart_after e]; rfl

/-- Settles O44: the two cells are read as they stand, `IF[2]` is the invariant's derived flag, and `Uart.after` moves the other
bits of `IF`, and `IEN`, only by the operations named. -/
theorem uartFlagAndEnableReadTheCells : Obligations.UartFlagAndEnableReadTheCells := by
  refine ⟨fun s => ⟨?ifRead, ?ienRead⟩, fun s hs => ?derived, fun i s s' k e hk hset hclear hreset => ?ifKept,
    fun v s s' e => ?ienWritten, fun i s s' e hwrite hreset => ?ienKept⟩
  case ifRead | ienRead => rfl
  case derived => exact hs.uart.derived_flag
  case ifKept => rw [exec_uart_after e, Uart.getLsbD_after_iflag hreset _ _ hset hclear hk]
  case ienWritten => exact execUrdIen_after e
  case ienKept =>
    have hread := execUrdIen_after e
    rwa [Uart.after_ien hreset _ _ hwrite] at hread

end Sys2Proof.Machine
end

section
/-! PROOFS. What every UART write does, said once for all nine, and the writes that follow (44_uart_writes.md). -/

namespace Sys2Proof.Machine

/-! ### The update step at the end of a UART transition (R155) -/

/-- R142 and R143's net effect, for any change of the registers. -/
theorem updateUart_eq (change : Uart → Uart) (s : State) : updateUart change s = .next { s with
    uart := { change s.uart with iflag := netFlags (change s.uart).status (change s.uart).iflag }, response := .nothing } := by
  rw [updateUart, Uart.update_eq]; rfl

/-- Where R30 holds, a UART transition that changes no register changes nothing. -/
theorem updateUart_id_of_derived (s : State) (h : s.uart.iflag.getLsbD 2 = s.uart.status.getLsbD 7) :
    updateUart (fun U => U) s = .next (s.respond .nothing) := by
  rw [updateUart, Uart.update_of_derived _ h]; rfl

/-- Settles O53: the unknown write is the update step alone, which the invariant makes empty. -/
theorem uartUnknownWriteChangesNothing : Obligations.UartUnknownWriteChangesNothing := by
  intro o v s
  exact ⟨updateUart_eq (fun U => U) s, fun hs => updateUart_id_of_derived s hs.uart.derived_flag⟩

/-! ### Every UART write (R140) -/

/-- A UART write completes and answers nothing: it replaces the stream and the UART, the latter by the update step of one with the
same receive cells. -/
theorem exec_uart_write {i : Instr} {o : Nat} {v : Word} (s : State)
    (hi : i ∈ [.uwrCmd v, .uwrStatus v, .uwrRxdatax v, .uwrTxdata v, .uwrIf v, .uwrIfs v, .uwrIfc v, .uwrIen v, .uwrUnk o v]) :
    ∃ (U : Uart) (tx : List Byte), exec i s = .next { s with uart := U.update, tx := tx, response := .nothing } ∧
      U.status = s.uart.status ∧ U.rxdatax = s.uart.rxdatax := by
  cases i with
  | uwrTxdata w =>
    have hsend := congrArg (updateUart fun U => U) (State.send_eq s (txByte w))
    exact ⟨_, _, hsend, rfl, rfl⟩
  | uwrCmd | uwrStatus | uwrRxdatax | uwrIf | uwrIfs | uwrIfc | uwrIen | uwrUnk => exact ⟨_, s.tx, rfl, rfl, rfl⟩
  | _ => simp at hi

/-- R31: the line is high exactly while an enabled flag is set. -/
theorem Uart.irq_iff (U : Uart) : U.irq = true ↔ U.iflag &&& U.ien ≠ 0 := bne_iff_ne

/-- The update step moves no bit of `IF` but the derived one. -/
theorem Uart.getLsbD_update_of_ne (U : Uart) {k : Nat} (hk : k ≠ 2) : U.update.iflag.getLsbD k = U.iflag.getLsbD k :=
  (U.getLsbD_update k).trans (if_neg hk)

/-- Settles O47: what all writes do is `exec_uart_write`, and the four that store something are read off the UART or the stream they
leave. -/
theorem uartWritesNeverFailOrTouchReceiveCells : Obligations.UartWritesNeverFailOrTouchReceiveCells := by
  intro o v s
  refine ⟨fun i hi => ?everyWrite, fun s' e => ?sent, fun s' e k _ hk => ?set, fun s' e k _ hk => ?cleared,
    fun s' e => ?enabled⟩
  case everyWrite =>
    obtain ⟨U, tx, e, hstatus, hrxdatax⟩ := exec_uart_write s hi
    have hderived : U.update.iflag.getLsbD 2 = s.uart.status.getLsbD 7 := hstatus ▸ U.update_derived
    exact ⟨_, e, hstatus, hrxdatax, hderived, U.update.irq_iff, rfl, rfl, rfl, rfl, rfl⟩
  case sent =>
    cases e
    rw [← txByte_eq]
    exact State.send_tx s (txByte v)
  case set =>
    rw [exec_uart_after e]
    exact (Uart.getLsbD_update_of_ne _ hk).trans (getLsbD_setBits _ v k)
  case cleared =>
    rw [exec_uart_after e]
    exact (Uart.getLsbD_update_of_ne _ hk).trans (getLsbD_clearBits _ v k)
  case enabled => rw [exec_uart_after e]; rfl

/-! ### The receive flag under `IFC` (R143) -/

/-- R126: an `RXDATAX` read clears the receive flag. -/
theorem Uart.release_update_flag (U : Uart) : U.release.update.iflag.getLsbD 2 = false := by
  rw [Uart.release_update, getLsbD_clearBits]
  simp [rxDataValidFlag]

/-- R157, R158: an item that has arrived waits. -/
theorem Uart.receive_hasData (item : Word) (U : Uart) : (U.receive item).hasData = true := by
  rw [Uart.hasData, Uart.receive, getLsbD_setBits]
  simp [rxDataValid]

/-- R162: an item that waits goes on waiting, but for an `RXDATAX` read and reset. -/
theorem Uart.after_hasData {i : Instr} (hread : i ≠ .urdRxdatax) (hreset : i ≠ .uevReset) (breakByte : Byte) {U : Uart}
    (hwait : U.hasData = true) : (U.after breakByte i).hasData = true := by
  cases i with
  | urdRxdatax => exact absurd rfl hread
  | uevReset => exact absurd rfl hreset
  | uevRx byte => exact Uart.receive_hasData (zext32 byte) U
  | uevBreak => exact Uart.receive_hasData (framingError ||| zext32 breakByte) U
  | _ => exact hwait

/-- R31: with nothing enabled the line is low, whatever the flags. -/
theorem lineLevel_zero (flags : Word) : lineLevel flags 0 = false := by
  simp [lineLevel]

/-- Settles O50: `IFC` and the `RXDATAX` read are read off the UART they leave; any other operation keeps the item waiting, and R30
(`receiveFlagEqualsDataValid`) carries that over to the flag. -/
theorem uartFlagClearWriteKeepsTheReceiveFlag : Obligations.UartFlagClearWriteKeepsTheReceiveFlag := by
  intro v s
  refine ⟨?netEffect, fun hwait s' e => ?notCleared, fun s' e => ?acknowledged,
    fun i s' hwait hflag e hread hreset => ?kept, fun s' e => ?masked⟩
  case netEffect => exact updateUart_eq (fun U => { U with iflag := clearBits U.iflag v }) s
  case notCleared =>
    rw [exec_uart_after e]
    exact (Uart.update_derived _).trans hwait
  case acknowledged =>
    rw [exec_uart_after e]
    exact s.uart.release_update_flag
  case kept =>
    obtain ⟨derived_kept, -⟩ := receiveFlagEqualsDataValid
    rw [derived_kept i s s' e (hflag.trans hwait.symm), exec_uart_after e]
    exact Uart.after_hasData hread hreset _ hwait
  case masked =>
    rw [exec_uart_after e]
    exact lineLevel_zero _

end Sys2Proof.Machine
end

section
/-! PROOFS. The can-receive query (45_uart_events.md R156). -/

namespace Sys2Proof.Machine

/-- R126: an `RXDATAX` read frees the slot. -/
theorem Uart.release_hasData (U : Uart) : U.release.hasData = false := by
  rw [Uart.hasData, Uart.release, getLsbD_clearBits]
  simp [rxDataValid]

/-- R201: reset frees the slot. -/
theorem Uart.zeroed_hasData (U : Uart) : U.zeroed.hasData = false := by
  rw [Uart.hasData, Uart.zeroed, getLsbD_setBits]
  simp [txBufferLevel]

/-- R156: with a transport attached the query answers whether the slot is free. -/
theorem execUevCanrx_of_attached {s : State} (hatt : s.config.transportAttached = true) :
    execUevCanrx s = .next (s.respond (.bool (!s.uart.hasData))) :=
  (execUevCanrx_eq_next _ _).mpr ⟨hatt, rfl⟩

/-- The query after an operation answers from the UART that operation left. -/
theorem execUevCanrx_after {i : Instr} {s s' : State} (hatt : s.config.transportAttached = true) (e : exec i s = .next s')
    {waits : Bool} (h : (s.uart.after s.config.breakByte i).hasData = waits) :
    execUevCanrx s' = .next (s'.respond (.bool (!waits))) := by
  have hatt' : s'.config.transportAttached = true := exec_config e ▸ hatt
  rw [execUevCanrx_of_attached hatt', exec_uart_after e, h]

/-- Settles O54: the query reads the slot and answers, and `Uart.after` says whether an item waits after each kind of operation. -/
theorem canReceiveAnswersWhetherTheSlotIsFree : Obligations.CanReceiveAnswersWhetherTheSlotIsFree := by
  refine ⟨fun s hatt => execUevCanrx_of_attached hatt, fun i s s' hatt e => ⟨?freed, ?arrived, fun hreset hread hwait => ?kept⟩⟩
  case freed =>
    rintro (rfl | rfl)
    · exact execUevCanrx_after hatt e s.uart.zeroed_hasData
    · exact execUevCanrx_after hatt e s.uart.release_hasData
  case arrived =>
    rintro (⟨byte, rfl⟩ | rfl)
    · exact execUevCanrx_after hatt e (Uart.receive_hasData (zext32 byte) s.uart)
    · exact execUevCanrx_after hatt e (Uart.receive_hasData (framingError ||| zext32 s.config.breakByte) s.uart)
  case kept => exact execUevCanrx_after hatt e (Uart.after_hasData hread hreset _ hwait)

end Sys2Proof.Machine
end

section
/-! PROOFS. The reset of the UART (70_reset_and_hazards.md R201). -/

namespace Sys2Proof.Machine

/-- R201: reset puts the UART in its initial state and changes nothing else. -/
theorem execUevReset_eq (s : State) :
    execUevReset s = .next { s with uart := Uart.initial, response := .nothing } := by
  rw [execUevReset, updateUart, Uart.zeroed_update]; rfl

/-- Settles O58: no enable bit is left to raise the line, and the slot that reset frees is what the query answers from. -/
theorem uartResetLeavesReadyAndEmpty : Obligations.UartResetLeavesReadyAndEmpty := by
  intro s
  refine ⟨execUevReset_eq s, fun s' e => ⟨?lineLow, ?streamKept, fun hatt => ?slotFree⟩⟩
  case lineLow =>
    rw [exec_uart_after e]
    exact lineLevel_zero _
  case streamKept => cases e; rfl
  case slotFree => exact execUevCanrx_after hatt e s.uart.zeroed_hasData

end Sys2Proof.Machine
end

section
/-! PROOFS. Requests and operations correspond (30_encoding.md sections 2 to 4), the model's bit record loses nothing (log entry 4), and
what a step serves (R49, R50). -/

namespace Sys2Proof

/-! ### Requests and operations -/

/-- R61, R76: the request of an operation selects it; an `UNK` operation's offset misses every register. -/
theorem decode_encode {i : Instr} (h : i.offsetOk = true) : decode (encode i) = i := by
  cases i with
  | trdUnk t offset => exact decode_timerRead_of_not_mem (by simpa [Instr.offsetOk] using h) t
  | twrUnk t offset value => exact decode_timerWrite_of_not_mem (by simpa [Instr.offsetOk] using h) t value
  | urdUnk offset => exact decode_uartRead_of_not_mem (by simpa [Instr.offsetOk] using h)
  | uwrUnk offset value => exact decode_uartWrite_of_not_mem (by simpa [Instr.offsetOk] using h) value
  | _ => rfl

/-- What the request decodes to encodes back to it, and has a legal offset. -/
def Request.RoundTrips (r : Request) : Prop := encode (decode r) = r ∧ (decode r).offsetOk = true

theorem timer_roundTrips (t offset : Nat) (value : Word) :
    (Request.timerRead t offset).RoundTrips ∧ (Request.timerWrite t offset value).RoundTrips := by
  by_cases h : offset ∈ timerOffsets
  · simp only [timerOffsets, List.mem_cons, List.not_mem_nil, or_false] at h
    obtain rfl | rfl | rfl | rfl | rfl | rfl | rfl | rfl := h <;> exact ⟨⟨rfl, rfl⟩, rfl, rfl⟩
  · rw [Request.RoundTrips, Request.RoundTrips, decode_timerRead_of_not_mem h, decode_timerWrite_of_not_mem h]
    simpa [encode, Instr.offsetOk] using h

theorem uart_roundTrips (offset : Nat) (value : Word) :
    (Request.uartRead offset).RoundTrips ∧ (Request.uartWrite offset value).RoundTrips := by
  by_cases h : offset ∈ uartOffsets
  · simp only [uartOffsets, List.mem_cons, List.not_mem_nil, or_false] at h
    obtain rfl | rfl | rfl | rfl | rfl | rfl | rfl | rfl := h <;> exact ⟨⟨rfl, rfl⟩, rfl, rfl⟩
  · rw [Request.RoundTrips, Request.RoundTrips, decode_uartRead_of_not_mem h, decode_uartWrite_of_not_mem h]
    simpa [encode, Instr.offsetOk] using h

/-- Settles O2: a bus access round-trips at each register offset by evaluation and at every other offset as `UNK`; an event is
selected by name. -/
theorem requestsAndOperationsCorrespond : Obligations.RequestsAndOperationsCorrespond := by
  refine ⟨fun i => decode_encode, fun r => ?_⟩
  cases r with
  | timerRead t offset => exact (timer_roundTrips t offset 0).1
  | timerWrite t offset value => exact (timer_roundTrips t offset value).2
  | uartRead offset => exact (uart_roundTrips offset 0).1
  | uartWrite offset value => exact (uart_roundTrips offset value).2
  | _ => exact ⟨rfl, rfl⟩

/-! ### The bit record -/

/-- The unit and the offset of a request fit their fields of the bit record; `encode_fits` ties it to `Instr.recordOk`. -/
def Request.Fits : Request → Prop
  | .timerRead t offset | .timerWrite t offset _ => t < 2 ^ 24 ∧ offset < 2 ^ 32
  | .uartRead offset | .uartWrite offset _ => offset < 2 ^ 32
  | .timerFire t | .timerReset t => t < 2 ^ 24
  | _ => True

theorem encode_fits {i : Instr} (h : i.recordOk = true) : (encode i).Fits := by
  cases i with
  | trdUnk | twrUnk | urdUnk | uwrUnk | tevFire | tevReset => simpa [encode, Request.Fits, Instr.recordOk] using h
  | trdCtrl | trdCmd | trdIen | trdIf | trdIfs | trdIfc | trdTop | trdCnt
  | twrCtrl | twrCmd | twrIen | twrIf | twrIfs | twrIfc | twrTop | twrCnt => simpa [encode, Request.Fits, Instr.recordOk] using h
  | urdCmd | urdStatus | urdRxdatax | urdTxdata | urdIf | urdIfs | urdIfc | urdIen
  | uwrCmd | uwrStatus | uwrRxdatax | uwrTxdata | uwrIf | uwrIfs | uwrIfc | uwrIen => simp [encode, Request.Fits]
  | uevCanrx | uevRx | uevBreak | uevReset | envAdvance => trivial

/-- The fields of a packed record come back. -/
theorem requestOfRecord_packRecord (selector unit offset operand : Nat) (hs : selector < 2 ^ 8) (hu : unit < 2 ^ 24)
    (ho : offset < 2 ^ 32) :
    requestOfRecord (packRecord selector unit offset operand) = requestOfFields selector unit offset operand := by
  rw [requestOfRecord, recordSelector_packRecord _ _ _ _ hs ho, recordUnit_packRecord _ _ _ _ hs hu ho,
    recordOffset_packRecord _ _ _ _ ho, recordOperand_packRecord _ _ _ _ hs hu ho]

/-- An operand of the width its selector takes is accepted. -/
theorem operandRequest_toNat {width : Nat} (value : BitVec width) (request : BitVec width → Request) :
    operandRequest 0 width value.toNat (request (BitVec.ofNat width value.toNat)) = .ok (request value) := by
  simp [operandRequest, requestIf, value.isLt]

theorem requestOfRecord_recordOfRequest {r : Request} (h : r.Fits) : requestOfRecord (recordOfRequest r) = .ok r := by
  cases r with
  | timerRead t offset =>
    obtain ⟨ht, ho⟩ := h
    exact requestOfRecord_packRecord 0 t offset 0 (by decide) ht ho
  | timerWrite t offset value =>
    obtain ⟨ht, ho⟩ := h
    rw [recordOfRequest, requestOfRecord_packRecord _ _ _ _ (by decide) ht ho]
    exact operandRequest_toNat value (.timerWrite t offset)
  | uartRead offset => exact requestOfRecord_packRecord 2 0 offset 0 (by decide) (by decide) h
  | uartWrite offset value =>
    rw [recordOfRequest, requestOfRecord_packRecord _ _ _ _ (by decide) (by decide) h]
    exact operandRequest_toNat value (.uartWrite offset)
  | timerFire t => exact requestOfRecord_packRecord 4 t 0 0 (by decide) h (by decide)
  | timerReset t => exact requestOfRecord_packRecord 5 t 0 0 (by decide) h (by decide)
  | uartReceive byte =>
    rw [recordOfRequest, requestOfRecord_packRecord _ _ _ _ (by decide) (by decide) (by decide)]
    exact operandRequest_toNat byte .uartReceive
  | uartCanReceive | uartBreak | uartReset => rfl
  | advance time => exact requestOfRecord_packRecord 10 0 0 time (by decide) (by decide) (by decide)

/-- Settles O3: the record gives back the request, and the request the operation. -/
theorem recordRoundTripsForEveryOperation : Obligations.RecordRoundTripsForEveryOperation := by
  intro i hoffset hrecord
  rw [decodeRecord, encodeRecord, requestOfRecord_recordOfRequest (encode_fits hrecord)]
  exact congrArg Except.ok (decode_encode hoffset)

/-- Settles O4, by evaluating the decoder on each record. -/
theorem writtenOutRecordsDecode : Obligations.WrittenOutRecordsDecode := by
  unfold Obligations.WrittenOutRecordsDecode
  decide

end Sys2Proof

namespace Sys2Proof.Machine

/-! ### The step -/

/-- Log entries 1 and 4: fetching the record of an operation puts its request first. -/
theorem withFetchWord_encodeRecord (s : State) {i : Instr} {nbits : Nat} (hrecord : i.recordOk = true)
    (hlt : encodeRecord i < 2 ^ nbits) :
    s.withFetchWord nbits (encodeRecord i) = { s with pending := encode i :: s.pending } := by
  rw [State.withFetchWord, Nat.mod_eq_of_lt hlt, State.presentRecord, encodeRecord,
    requestOfRecord_recordOfRequest (encode_fits hrecord)]

theorem step_of_pending {s : State} {r : Request} {rest : List Request} (h : s.pending = r :: rest) :
    step s = exec (decode r) { s with pending := rest } := by
  rw [step, State.takeRequest_cons s r rest h]

/-- Settles O5: the step takes the head of the waiting requests, and a fetched operation's request is that head. -/
theorem stepRunsTheDecodedRequest : Obligations.StepRunsTheDecodedRequest := by
  refine ⟨fun s r rest => step_of_pending, fun s h => ?noRequest, fun s i nbits hoffset hrecord hlt => ?fetched⟩
  case noRequest => rw [step, State.takeRequest_nil s h]
  case fetched =>
    rw [withFetchWord_encodeRecord s hrecord hlt, step_of_pending rfl, decode_encode hoffset]

end Sys2Proof.Machine
end

section
/-! PROOFS. The frame of every operation on a Timer unit (R91 to R101, R114, R118, R200): `Timer.after` says what an operation of the
unit leaves, `exec_units` that no other operation touches it. -/

namespace Sys2Proof.Machine

/-! ### The units after an operation -/

/-- R93, R94: what a `CMD` write leaves, in the spec's arithmetic. -/
theorem Timer.after_twrCmd (vtu now t : Nat) (v : Word) (T : Timer) : T.after vtu now (.twrCmd t v) =
    { T with deadline := if v.getLsbD 1 then none
        else if v.getLsbD 0 then some (now + expiryTicks T * vtu / T.rate) else T.deadline } :=
  T.command_eq (startPulse v) (stopPulse v) vtu now

/-- R99: what an `IFC` write leaves, in the spec's arithmetic. -/
theorem Timer.after_twrIfc (vtu now t : Nat) (v : Word) (T : Timer) : T.after vtu now (.twrIfc t v) =
    { T with
      iflag := clearBits T.iflag v,
      deadline := if T.ctrl.getLsbD 4 then T.deadline else some (now + T.top.toNat * vtu / T.rate) } :=
  Timer.rearm_eq { T with iflag := clearBits T.iflag v } vtu now

/-- Every operation leaves each Timer unit what `Timer.after` gives if it is an operation of that unit, and as it was otherwise. -/
theorem exec_units {i : Instr} {s s' : State} (e : exec i s = .next s') (t : Nat) :
    s'.timers[t]? = s.timers[t]?.map fun T => if i.target = .timer t then T.after s.config.vtu s.now i else T := by
  by_cases hi : i.target = .timer t
  · simp only [hi, if_true]
    cases hT : s.timers[t]? with
    | some T => exact exec_own_unit hi hT e
    | none =>
      obtain ⟨T, r, rfl⟩ := exec_timer_frame hi e
      rw [State.respond_timers, State.setTimer_timers, getElem?_set_map, hT]
      exact ite_self none
  · simp only [hi, if_false, Option.map_id']
    exact exec_other_unit hi e

/-- A unit after an operation is a unit before it, as it was or as `Timer.after` gives it. -/
theorem exec_unit_cases {i : Instr} {t : Nat} {s s' : State} {T' : Timer} (e : exec i s = .next s')
    (hT' : s'.timers[t]? = some T') :
    ∃ T, s.timers[t]? = some T ∧ (T' = T ∨ i.target = .timer t ∧ T' = T.after s.config.vtu s.now i) := by
  rw [exec_units e t, Option.map_eq_some_iff] at hT'
  obtain ⟨T, hT, rfl⟩ := hT'
  refine ⟨T, hT, ?_⟩
  split
  · next hi => exact .inr ⟨hi, rfl⟩
  · exact .inl rfl

/-! ### Which operations may change each field -/

/-- The operations that may change each field of Timer unit `t`, from `T` to `T'`. -/
structure Timer.Framed (t : Nat) (i : Instr) (T T' : Timer) : Prop where
  baseClock : T'.baseClock = T.baseClock
  ctrl : T'.ctrl ≠ T.ctrl → (∃ v, i = .twrCtrl t v) ∨ i = .tevReset t
  rate : T'.rate ≠ T.rate → (∃ v, i = .twrCtrl t v) ∨ i = .tevReset t
  ien : T'.ien ≠ T.ien → (∃ v, i = .twrIen t v) ∨ i = .tevReset t
  top : T'.top ≠ T.top → (∃ v, i = .twrTop t v) ∨ i = .tevReset t
  cnt : T'.cnt ≠ T.cnt → (∃ v, i = .twrCnt t v) ∨ i = .tevReset t
  iflag : T'.iflag ≠ T.iflag → (∃ v, i = .twrIfs t v) ∨ (∃ v, i = .twrIfc t v) ∨ i = .tevFire t ∨ i = .tevReset t
  deadline : T'.deadline ≠ T.deadline → (∃ v, i = .twrCmd t v) ∨ (∃ v, i = .twrIfc t v) ∨ i = .tevFire t ∨ i = .tevReset t

theorem Timer.Framed.refl (t : Nat) (i : Instr) (T : Timer) : T.Framed t i T where
  baseClock := rfl
  ctrl h := absurd rfl h
  rate h := absurd rfl h
  ien h := absurd rfl h
  top h := absurd rfl h
  cnt h := absurd rfl h
  iflag h := absurd rfl h
  deadline h := absurd rfl h

/-- Every operation of a unit keeps to its frame. -/
theorem Timer.after_framed {i : Instr} {t : Nat} (hi : i.target = .timer t) (vtu now : Nat) (T : Timer) :
    T.Framed t i (T.after vtu now i) := by
  cases i with
  | twrCtrl | twrIen | twrIfs | twrTop | twrCnt | tevReset => cases hi; constructor <;> simp [Timer.after, Timer.resetUnit]
  | twrCmd u v => cases hi; rw [Timer.after_twrCmd]; constructor <;> simp
  | twrIfc u v => cases hi; rw [Timer.after_twrIfc]; constructor <;> simp
  | tevFire u => cases hi; rw [Timer.after, Timer.expire_eq]; constructor <;> simp
  | _ => exact .refl t _ T

theorem exec_framed {i : Instr} {s s' : State} {t : Nat} {T T' : Timer} (e : exec i s = .next s') (hT : s.timers[t]? = some T)
    (hT' : s'.timers[t]? = some T') : T.Framed t i T' := by
  obtain ⟨T₀, hT₀, h⟩ := exec_unit_cases e hT'
  cases hT.symm.trans hT₀
  obtain rfl | ⟨hi, rfl⟩ := h
  · exact .refl t i T'
  · exact T.after_framed hi _ _

/-- Settles O14: every operation keeps each unit to `Timer.Framed`. -/
theorem timerCellsChangeOnlyByTheirOperations : Obligations.TimerCellsChangeOnlyByTheirOperations := by
  intro i s s' t T T' e hT hT'
  obtain ⟨hclock, hctrl, hrate, hien, htop, hcnt, hiflag, hdeadline⟩ := exec_framed e hT hT'
  exact ⟨hclock, hctrl, hrate, hien, htop, hcnt, hiflag, hdeadline⟩

/-! ### The flags -/

/-- R114: the one bit the callback may set. -/
theorem getLsbD_modeFlag (T : Timer) (k : Nat) (h : (modeFlag T).getLsbD k = true) :
    (T.ctrl.toNat % 4 = 0 ∧ k = 0) ∨ (T.ctrl.toNat % 4 ≠ 0 ∧ k = 1) := by
  have hk : k < 32 := BitVec.lt_of_getLsbD h
  unfold modeFlag at h
  split at h
  · next hmode => exact .inl ⟨hmode, of_decide_eq_true ((getLsbD_bit 0 k hk).symm.trans h)⟩
  · next hmode => exact .inr ⟨hmode, of_decide_eq_true ((getLsbD_bit 1 k hk).symm.trans h)⟩

/-- Settles O16: a bit that moves is a change of `IF`, which leaves the four operations of its frame, and each moves the bits named. -/
theorem timerFlagBitsMoveOnlyByTheirSources : Obligations.TimerFlagBitsMoveOnlyByTheirSources := by
  intro i s s' t k T T' e hT hT'
  by_cases hsame : T'.iflag = T.iflag
  · rw [hsame]
    exact ⟨fun h₀ h₁ => by simp [h₀] at h₁, fun h₁ h₀ => by simp [h₁] at h₀⟩
  have hafter (hi : i.target = .timer t) : T' = T.after s.config.vtu s.now i :=
    Option.some.inj (hT'.symm.trans (exec_own_unit hi hT e))
  obtain ⟨v, rfl⟩ | ⟨v, rfl⟩ | rfl | rfl := (exec_framed e hT hT').iflag hsame
  · have hbit : T'.iflag.getLsbD k = (T.iflag.getLsbD k || v.getLsbD k) := by rw [hafter rfl]; exact getLsbD_setBits _ v k
    exact ⟨fun h₀ h₁ => .inl ⟨v, rfl, by simpa [hbit, h₀] using h₁⟩, fun h₁ h₀ => by simp [hbit, h₁] at h₀⟩
  · have hbit : T'.iflag.getLsbD k = (T.iflag.getLsbD k && !v.getLsbD k) := by
      rw [hafter rfl, Timer.after_twrIfc]; exact getLsbD_clearBits _ v k
    exact ⟨fun h₀ h₁ => by simp [hbit, h₀] at h₁, fun h₁ h₀ => .inl ⟨v, rfl, by simpa [hbit, h₁] using h₀⟩⟩
  · have hbit : T'.iflag.getLsbD k = (T.iflag.getLsbD k || (modeFlag T).getLsbD k) := by
      rw [hafter rfl, Timer.after, Timer.expire_eq]; exact BitVec.getLsbD_or
    exact ⟨fun h₀ h₁ => .inr ⟨rfl, getLsbD_modeFlag T k (by simpa [hbit, h₀] using h₁)⟩,
      fun h₁ h₀ => by simp [hbit, h₁] at h₀⟩
  · have hbit : T'.iflag.getLsbD k = false := by rw [hafter rfl]; exact BitVec.getLsbD_zero
    exact ⟨fun h₀ h₁ => by simp [hbit] at h₁, fun _ _ => .inr rfl⟩

/-- Settles O22: the read answers the cell, which its frame keeps from every other operation. -/
theorem timerFlagReadClearsNothing : Obligations.TimerFlagReadClearsNothing := by
  intro t s T hT
  refine ⟨readTimer_of t _ s T hT, fun i s' e hfire hset hclear hreset => ?kept,
    fun v s' e => readTimer_after_own Timer.iflag rfl hT e⟩
  refine readTimer_after_of_kept Timer.iflag hT e fun hi => ?_
  by_contra hne
  obtain ⟨v, hi⟩ | ⟨v, hi⟩ | hi | hi := (T.after_framed hi _ _).iflag hne
  · exact hset v hi
  · exact hclear v hi
  · exact hfire hi
  · exact hreset hi

end Sys2Proof.Machine
end

section
/-! PROOFS. The frame of every operation outside the Timer units (R126, R141 to R144, R157, R158, R201), and what no run changes: time
goes forward (R7), the parameters stay (R6). -/

namespace Sys2Proof.Machine

/-! ### The frame of the UART, the stream, time and the waiting requests -/

/-- R126, R157, R158, R201: no other operation changes `STATUS`. -/
theorem Uart.after_status {i : Instr} (hread : i ≠ .urdRxdatax) (hbyte : ∀ b, i ≠ .uevRx b) (hbreak : i ≠ .uevBreak)
    (hreset : i ≠ .uevReset) (breakByte : Byte) (U : Uart) : (U.after breakByte i).status = U.status := by
  cases i with
  | urdRxdatax => exact absurd rfl hread
  | uevRx b => exact absurd rfl (hbyte b)
  | uevBreak => exact absurd rfl hbreak
  | uevReset => exact absurd rfl hreset
  | _ => rfl

/-- R157, R158, R201: no other operation changes `RXDATAX`. -/
theorem Uart.after_rxdatax {i : Instr} (hbyte : ∀ b, i ≠ .uevRx b) (hbreak : i ≠ .uevBreak) (hreset : i ≠ .uevReset)
    (breakByte : Byte) (U : Uart) : (U.after breakByte i).rxdatax = U.rxdatax := by
  cases i with
  | uevRx b => exact absurd rfl (hbyte b)
  | uevBreak => exact absurd rfl hbreak
  | uevReset => exact absurd rfl hreset
  | _ => rfl

/-- No operation touches the requests that wait. -/
theorem exec_pending {i : Instr} {s s' : State} (e : exec i s = .next s') : s'.pending = s.pending := by
  cases hi : i.target with
  | timer t => obtain ⟨T, r, rfl⟩ := exec_timer_frame hi e; rfl
  | uart => obtain ⟨U, tx, r, rfl⟩ := exec_uart_frame hi e; rfl
  | clock => obtain ⟨time, -, rfl⟩ := exec_clock_frame hi e; rfl

/-- R116: an operation leaves time as it is, or is the advance to a time not before it. -/
theorem exec_now_cases {i : Instr} {s s' : State} (e : exec i s = .next s') :
    s'.now = s.now ∨ (i = .envAdvance s'.now ∧ s.now ≤ s'.now) := by
  cases hi : i.target with
  | timer t => obtain ⟨T, r, rfl⟩ := exec_timer_frame hi e; exact .inl rfl
  | uart => obtain ⟨U, tx, r, rfl⟩ := exec_uart_frame hi e; exact .inl rfl
  | clock =>
    obtain ⟨time, rfl, -⟩ := exec_clock_frame hi e
    obtain ⟨hle, -, rfl⟩ := (execEnvAdvance_eq_next _ _ _).mp e
    exact .inr ⟨rfl, hle⟩

/-- Settles O15: what the frame lemmas keep from every other operation can have changed only by those named. -/
theorem uartCellsChangeOnlyByTheirOperations : Obligations.UartCellsChangeOnlyByTheirOperations := by
  intro i s s' e
  rw [exec_uart_after e]
  refine ⟨exec_config e, exec_pending e, fun hne => ?status, fun hne => ?rxdatax, fun hne => ?ien, fun k hk hne => ?iflag,
    fun hne => ?tx, fun hne => ?now⟩
  case status =>
    by_contra h
    push Not at h
    obtain ⟨hread, hbyte, hbreak, hreset⟩ := h
    exact hne (Uart.after_status hread hbyte hbreak hreset _ _)
  case rxdatax =>
    by_contra h
    push Not at h
    obtain ⟨hbyte, hbreak, hreset⟩ := h
    exact hne (Uart.after_rxdatax hbyte hbreak hreset _ _)
  case ien =>
    by_contra h
    push Not at h
    obtain ⟨hwrite, hreset⟩ := h
    exact hne (Uart.after_ien hreset _ _ hwrite)
  case iflag =>
    by_contra h
    push Not at h
    obtain ⟨hset, hclear, hreset⟩ := h
    exact hne (Uart.getLsbD_after_iflag hreset _ _ hset hclear hk)
  case tx =>
    obtain htx | ⟨-, v, hv, -⟩ := exec_tx_cases e
    · exact absurd htx hne
    · exact ⟨v, hv⟩
  case now =>
    obtain hnow | ⟨hi, -⟩ := exec_now_cases e
    · exact absurd hnow hne
    · exact hi

/-- Settles O17: a rise of `STATUS[7]` is a change of `STATUS`, and of the four operations of its frame the read and the reset free the
slot; a fall is ruled out by `Uart.after_hasData` for every other operation. -/
theorem receiverFillsAndEmptiesOnlyByItsEvents : Obligations.ReceiverFillsAndEmptiesOnlyByItsEvents := by
  intro i s s' e
  refine ⟨fun hfree hwait => ?fills, fun hwait hfree => ?empties⟩
  case fills =>
    obtain ⟨-, -, hstatus, -⟩ := uartCellsChangeOnlyByTheirOperations i s s' e
    obtain rfl | hbyte | hbreak | rfl := hstatus fun h => Bool.false_ne_true (hfree.symm.trans (h ▸ hwait))
    · rw [exec_uart_after e] at hwait
      exact absurd (s.uart.release_hasData.symm.trans hwait) Bool.false_ne_true
    · exact .inl hbyte
    · exact .inr hbreak
    · rw [exec_uart_after e] at hwait
      exact absurd (s.uart.zeroed_hasData.symm.trans hwait) Bool.false_ne_true
  case empties =>
    by_contra h
    push Not at h
    obtain ⟨hread, hreset⟩ := h
    rw [exec_uart_after e] at hfree
    exact Bool.false_ne_true (hfree.symm.trans (Uart.after_hasData hread hreset _ hwait))

/-! ### What no run changes -/

/-- Settles O19: each operation keeps the order, or the time itself, and so does a run. -/
theorem virtualTimeNeverGoesBack : Obligations.VirtualTimeNeverGoesBack := by
  refine ⟨fun l s s' e => ?monotone, fun l s s' hl e => ?constant⟩
  case monotone =>
    refine runAll_induct (fun s s' => s.now ≤ s'.now) (fun _ => True) (fun _ => le_rfl) (fun _ _ _ => le_trans)
      (fun i s s' _ e => ?_) l s s' (fun _ _ => trivial) e
    obtain hnow | ⟨-, hle⟩ := exec_now_cases e
    · exact hnow.ge
    · exact hle
  case constant =>
    refine runAll_induct (fun s s' => s'.now = s.now) (fun i => ∀ time, i ≠ .envAdvance time) (fun _ => rfl)
      (fun _ _ _ hab hbc => hbc.trans hab) (fun i s s' hi e => ?_) l s s' hl e
    obtain hnow | ⟨hadvance, -⟩ := exec_now_cases e
    · exact hnow
    · exact absurd hadvance (hi s'.now)

/-- R6: no operation changes a base clock or the number of units. -/
theorem exec_baseClocks {i : Instr} {s s' : State} (e : exec i s = .next s') :
    s'.timers.map (fun T => T.baseClock) = s.timers.map (fun T => T.baseClock) := by
  apply List.ext_getElem?
  intro t
  rw [List.getElem?_map, List.getElem?_map, exec_units e t, Option.map_map]
  congr 1
  funext T
  rw [Function.comp_apply]
  split
  · next hi => exact (T.after_framed hi _ _).baseClock
  · rfl

/-- Settles O20: each operation keeps both, and so does a run. -/
theorem parametersNeverChange : Obligations.ParametersNeverChange := by
  intro l s s' e
  refine runAll_induct
    (fun s s' => s'.config = s.config ∧ s'.timers.map (fun T => T.baseClock) = s.timers.map (fun T => T.baseClock))
    (fun _ => True) (fun _ => ⟨rfl, rfl⟩) ?_ (fun i s s' _ e => ⟨exec_config e, exec_baseClocks e⟩) l s s' (fun _ _ => trivial) e
  rintro a b c ⟨hconfig, hclocks⟩ ⟨hconfig', hclocks'⟩
  exact ⟨hconfig'.trans hconfig, hclocks'.trans hclocks⟩

end Sys2Proof.Machine
end

section
/-! PROOFS. The machine's invariant (R23, R25, R26, R30, R32, R115, R160): every operation keeps it, a step serves an operation, and the
machine is built in it. -/

namespace Sys2Proof.Machine

/-! ### The Timer units -/

/-- R23, R115: an operation of the unit keeps its invariant; a deadline it sets lies at or after `now`. -/
theorem Timer.Inv.after {T : Timer} {now : Nat} (h : T.Inv now) (vtu : Nat) (i : Instr) : (T.after vtu now i).Inv now := by
  obtain ⟨hpos, hlt, hrate, hnot⟩ := h
  cases i with
  | twrCtrl t v => exact ⟨hpos, hlt, rateOf_eq _ v, hnot⟩
  | twrCmd t v =>
    rw [Timer.after_twrCmd]
    refine ⟨hpos, hlt, hrate, fun d hd => ?_⟩
    dsimp only at hd
    split at hd
    · cases hd
    · split at hd
      · cases hd; exact Nat.le_add_right _ _
      · exact hnot d hd
  | twrIfc t v =>
    rw [Timer.after_twrIfc]
    refine ⟨hpos, hlt, hrate, fun d hd => ?_⟩
    dsimp only at hd
    split at hd
    · exact hnot d hd
    · cases hd; exact Nat.le_add_right _ _
  | tevFire t =>
    rw [Timer.after, Timer.expire_eq]
    exact ⟨hpos, hlt, hrate, fun d hd => by cases hd⟩
  | tevReset t => exact ⟨hpos, hlt, rateOf_eq _ 0, fun d hd => by cases hd⟩
  | _ => exact ⟨hpos, hlt, hrate, hnot⟩

theorem exec_keeps_timers_inv {i : Instr} {s s' : State} (h : ∀ T ∈ s.timers, T.Inv s.now) (e : exec i s = .next s') :
    ∀ T ∈ s'.timers, T.Inv s'.now := by
  intro T' hmem
  obtain ⟨t, hT'⟩ := List.mem_iff_getElem?.mp hmem
  obtain ⟨T, hT, hcases⟩ := exec_unit_cases e hT'
  have hInv : T.Inv s.now := h T (List.mem_of_getElem? hT)
  obtain hnow | ⟨hi, -⟩ := exec_now_cases e
  · rw [hnow]
    obtain rfl | ⟨-, rfl⟩ := hcases
    · exact hInv
    · exact hInv.after _ i
  · generalize hnow : s'.now = time at hi ⊢
    subst hi
    obtain ⟨-, hadmits, rfl⟩ := (execEnvAdvance_eq_next _ _ _).mp e
    obtain ⟨hpos, hlt, hrate, hnot⟩ := h T' hmem
    refine ⟨hpos, hlt, hrate, fun d hd => ?_⟩
    have := hadmits T' hmem d hd
    rwa [max_eq_left (hnot d hd)] at this

/-! ### The UART -/

/-- With legal receive cells the update step makes the invariant. -/
theorem Uart.update_inv {U : Uart} (hstatus : U.status = 0x40 ∨ U.status = 0xC0) (hrxdatax : U.rxdatax &&& 0xFFFF7F00 = 0) :
    U.update.Inv := ⟨U.update_derived, hstatus, hrxdatax⟩

/-- R26: an item with at most the framing error above its byte leaves the always-zero bits. -/
theorem rxdatax_legal_of_byte : ∀ b : Byte, zext32 b &&& 0xFFFF7F00 = 0 ∧ (framingError ||| zext32 b) &&& 0xFFFF7F00 = 0 := by
  decide

theorem setBits_rxDataValid_of_legal {w : Word} (h : w = 0x40 ∨ w = 0xC0) : setBits w rxDataValid = 0xC0 := by
  obtain rfl | rfl := h <;> rfl

theorem clearBits_rxDataValid_of_legal {w : Word} (h : w = 0x40 ∨ w = 0xC0) : clearBits w rxDataValid = 0x40 := by
  obtain rfl | rfl := h <;> rfl

/-- An item that arrives with legal bits leaves the invariant. -/
theorem Uart.Inv.receive {U : Uart} (h : U.Inv) {item : Word} (hitem : item &&& 0xFFFF7F00 = 0) : (U.receive item).update.Inv :=
  Uart.update_inv (.inr (setBits_rxDataValid_of_legal h.status_legal)) hitem

theorem Uart.Inv.release {U : Uart} (h : U.Inv) : U.release.update.Inv :=
  Uart.update_inv (.inl (clearBits_rxDataValid_of_legal h.status_legal)) h.rxdatax_legal

theorem Uart.initial_inv : Uart.initial.Inv := ⟨by decide, by decide, by decide⟩

/-- R25, R26, R30: every operation keeps the UART's invariant. -/
theorem Uart.Inv.after {U : Uart} (h : U.Inv) (breakByte : Byte) (i : Instr) : (U.after breakByte i).Inv := by
  cases i with
  | urdRxdatax => exact h.release
  | uevRx b => exact h.receive (rxdatax_legal_of_byte b).1
  | uevBreak => exact h.receive (rxdatax_legal_of_byte breakByte).2
  | uevReset =>
    show U.zeroed.update.Inv
    rw [Uart.zeroed_update]
    exact Uart.initial_inv
  | urdCmd | urdTxdata | urdIfs | urdIfc | urdUnk
  | uwrCmd | uwrStatus | uwrRxdatax | uwrTxdata | uwrIf | uwrIfs | uwrIfc | uwrIen | uwrUnk =>
    exact Uart.update_inv h.status_legal h.rxdatax_legal
  | _ => exact h

/-- R160: with no transport nothing arrives, so the receive cells stay as reset left them. -/
theorem exec_keeps_receiver_empty {i : Instr} {s s' : State} (hdet : s.config.transportAttached = false)
    (hstatus : s.uart.status = 0x40) (hrxdatax : s.uart.rxdatax = 0) (e : exec i s = .next s') :
    s'.uart.status = 0x40 ∧ s'.uart.rxdatax = 0 := by
  rw [exec_uart_after e]
  cases i with
  | uevRx b =>
    obtain ⟨hatt, -⟩ := (execUevRx_eq_next _ _ _).mp e
    simp [hdet] at hatt
  | uevBreak =>
    obtain ⟨hatt, -⟩ := (execUevBreak_eq_next _ _).mp e
    simp [hdet] at hatt
  | urdRxdatax =>
    show clearBits s.uart.status rxDataValid = 0x40 ∧ s.uart.rxdatax = 0
    exact ⟨clearBits_rxDataValid_of_legal (.inl hstatus), hrxdatax⟩
  | uevReset =>
    show s.uart.zeroed.update.status = 0x40 ∧ s.uart.zeroed.update.rxdatax = 0
    rw [Uart.zeroed_update]
    exact ⟨rfl, rfl⟩
  | _ => exact ⟨hstatus, hrxdatax⟩

/-! ### The whole machine -/

/-- Every operation keeps the invariant. -/
theorem exec_keeps_inv {i : Instr} {s s' : State} (h : s.Inv) (e : exec i s = .next s') : s'.Inv where
  vtu_pos := exec_config e ▸ h.vtu_pos
  vtu_lt := exec_config e ▸ h.vtu_lt
  some_timer hnil := by
    have hclocks := exec_baseClocks e
    rw [hnil, List.map_nil, eq_comm, List.map_eq_nil_iff] at hclocks
    exact h.some_timer hclocks
  timers := exec_keeps_timers_inv h.timers e
  uart := exec_uart_after e ▸ h.uart.after _ i
  unattached hdet := by
    obtain ⟨hconfig, htx⟩ := exec_streamKept e
    rw [hconfig] at hdet
    obtain ⟨hempty, hstatus, hrxdatax⟩ := h.unattached hdet
    exact ⟨(htx hdet).trans hempty, exec_keeps_receiver_empty hdet hstatus hrxdatax e⟩

/-- The invariant says nothing of the waiting requests. -/
theorem State.Inv.with_pending {s : State} (h : s.Inv) (rest : List Request) : ({ s with pending := rest } : State).Inv :=
  ⟨h.vtu_pos, h.vtu_lt, h.some_timer, h.timers, h.uart, h.unattached⟩

/-- Settles O8: a step that completes is an operation on the state without its request. -/
theorem everyStepKeepsTheInvariant : Obligations.EveryStepKeepsTheInvariant := by
  intro s s' h e
  obtain ⟨r, rest, -, e⟩ := (step_eq_next s s').mp e
  exact exec_keeps_inv (h.with_pending rest) e

/-- A run of at least one step that completes. -/
theorem core_run_succ_eq_next (M : Host.Core) (k : Nat) (s s' : M.State) :
    M.run (k + 1) s = .next s' ↔ ∃ s₁, M.step s = .next s₁ ∧ M.run k s₁ = .next s' := by
  simp only [Host.Core.run]
  cases M.step s <;> simp

/-- Settles O10, by induction on the number of steps. -/
theorem runsKeepTheInvariant : Obligations.RunsKeepTheInvariant := by
  intro k
  induction k with
  | zero => rintro s s' h ⟨⟩; exact h
  | succ k ih =>
    intro s s' h e
    obtain ⟨s₁, hstep, hrest⟩ := (core_run_succ_eq_next Sys2Proof.core k s s').mp e
    exact ih s₁ s' (everyStepKeepsTheInvariant s s₁ h hstep) hrest

/-- R37: a unit built with a legal clock meets the invariant at time 0. -/
theorem Timer.initial_inv {clock : Nat} (h : baseClockWf clock = true) : (Timer.initial clock).Inv 0 := by
  obtain ⟨hpos, hlt⟩ := of_decide_eq_true h
  exact ⟨hpos, hlt, by simp [Timer.initial], fun d hd => by cases hd⟩

theorem State.initial_inv {c : Config} {clocks : List Nat} (hc : c.wf = true) (hclocks : baseClocksWf clocks = true) :
    (State.initial c clocks).Inv := by
  obtain ⟨hpos, hlt⟩ := of_decide_eq_true hc
  rw [baseClocksWf, Bool.and_eq_true, List.all_eq_true] at hclocks
  obtain ⟨hsome, hlegal⟩ := hclocks
  refine ⟨hpos, hlt, ?someTimer, fun T hT => ?timers, Uart.initial_inv, fun _ => ⟨rfl, rfl, rfl⟩⟩
  case someTimer => simpa [State.initial] using hsome
  case timers =>
    obtain ⟨clock, hmem, rfl⟩ := List.mem_map.mp hT
    exact Timer.initial_inv (hlegal clock hmem)

/-- Settles O9: `State.reset` is the initial state of legal parameters. -/
theorem initialStatesMeetTheInvariant : Obligations.InitialStatesMeetTheInvariant :=
  ⟨fun _ _ => State.initial_inv, State.initial_inv (by decide) (by decide)⟩

end Sys2Proof.Machine
end

section
/-! PROOFS. When an operation has its step (R115, R116, R159, R160, R170), how the machine stops where it has none (log entries 7 and 8),
and what a missing transport leaves out (R160). -/

namespace Sys2Proof.Machine

/-! ### Completion -/

theorem unit_exists_iff (s : State) (t : Nat) : (∃ T, s.timers[t]? = some T) ↔ t < s.timers.length :=
  ⟨fun ⟨_, hT⟩ => (List.getElem?_eq_some_iff.mp hT).1, fun ht => ⟨_, List.getElem?_eq_getElem ht⟩⟩

/-- A Timer read completes exactly on a unit that exists. -/
theorem readTimer_completes_iff (t : Nat) (answer : Timer → Word) (s : State) :
    (∃ s', readTimer t answer s = .next s') ↔ t < s.timers.length := by
  rw [← unit_exists_iff]
  simp only [readTimer_eq_next]
  exact ⟨fun ⟨_, T, hT, _⟩ => ⟨T, hT⟩, fun ⟨T, hT⟩ => ⟨_, T, hT, rfl⟩⟩

/-- A Timer transition completes exactly on a unit that exists. -/
theorem updateTimer_completes_iff (t : Nat) (change : Timer → Timer) (s : State) :
    (∃ s', updateTimer t change s = .next s') ↔ t < s.timers.length := by
  rw [← unit_exists_iff]
  simp only [updateTimer_eq_next]
  exact ⟨fun ⟨_, T, hT, _⟩ => ⟨T, hT⟩, fun ⟨T, hT⟩ => ⟨_, T, hT, rfl⟩⟩

/-- R115: the callback completes exactly on a unit that is due. -/
theorem execTevFire_completes_iff (t : Nat) (s : State) : (∃ s', execTevFire t s = .next s') ↔ Enabled s (.tevFire t) := by
  simp only [Enabled, Instr.unitOk, Instr.target, decide_eq_true_iff]
  constructor
  · rintro ⟨s', e⟩
    obtain ⟨T, d, hT, hd, hle, -⟩ := (execTevFire_eq_next _ _ _).mp e
    exact ⟨(unit_exists_iff s t).mp ⟨T, hT⟩, T, d, hT, hd, hle⟩
  · rintro ⟨-, T, d, hT, hd, hle⟩
    exact ⟨_, (execTevFire_eq_next _ _ _).mpr ⟨T, d, hT, hd, hle, rfl⟩⟩

/-- R116: the advance completes exactly where time may move. -/
theorem execEnvAdvance_completes_iff (time : Nat) (s : State) :
    (∃ s', execEnvAdvance time s = .next s') ↔ Enabled s (.envAdvance time) := by
  constructor
  · rintro ⟨s', e⟩
    obtain ⟨hle, hadmits, -⟩ := (execEnvAdvance_eq_next _ _ _).mp e
    exact ⟨rfl, hle, hadmits⟩
  · rintro ⟨-, hle, hadmits⟩
    exact ⟨_, (execEnvAdvance_eq_next _ _ _).mpr ⟨hle, hadmits, rfl⟩⟩

/-- R159, R160: a byte arrives exactly with a transport attached and nothing waiting. -/
theorem execUevRx_completes_iff (b : Byte) (s : State) : (∃ s', execUevRx b s = .next s') ↔ Enabled s (.uevRx b) := by
  constructor
  · rintro ⟨s', e⟩
    obtain ⟨hatt, hfree, -⟩ := (execUevRx_eq_next _ _ _).mp e
    exact ⟨rfl, hatt, hfree⟩
  · rintro ⟨-, hatt, hfree⟩
    exact ⟨_, (execUevRx_eq_next _ _ _).mpr ⟨hatt, hfree, rfl⟩⟩

/-- Settles O6: each kind of operation completes under its own condition, and the others always. -/
theorem operationsCompleteExactlyWhenEnabled : Obligations.OperationsCompleteExactlyWhenEnabled := by
  intro i s
  cases i with
  | trdCtrl | trdCmd | trdIen | trdIf | trdIfs | trdIfc | trdTop | trdCnt | trdUnk =>
    simp only [Enabled, Instr.unitOk, Instr.target, decide_eq_true_iff, and_true]
    exact readTimer_completes_iff _ _ s
  | twrCtrl | twrCmd | twrIen | twrIf | twrIfs | twrIfc | twrTop | twrCnt | twrUnk | tevReset =>
    simp only [Enabled, Instr.unitOk, Instr.target, decide_eq_true_iff, and_true]
    exact updateTimer_completes_iff _ _ s
  | tevFire t => exact execTevFire_completes_iff t s
  | envAdvance time => exact execEnvAdvance_completes_iff time s
  | uevRx b => exact execUevRx_completes_iff b s
  | uevCanrx =>
    exact ⟨fun ⟨s', e⟩ => ⟨rfl, ((execUevCanrx_eq_next s s').mp e).1⟩,
      fun ⟨_, hatt⟩ => ⟨_, (execUevCanrx_eq_next s _).mpr ⟨hatt, rfl⟩⟩⟩
  | uevBreak =>
    exact ⟨fun ⟨s', e⟩ => ⟨rfl, ((execUevBreak_eq_next s s').mp e).1⟩,
      fun ⟨_, hatt⟩ => ⟨_, (execUevBreak_eq_next s _).mpr ⟨hatt, rfl⟩⟩⟩
  | urdCmd | urdStatus | urdRxdatax | urdTxdata | urdIf | urdIfs | urdIfc | urdIen | urdUnk
  | uwrCmd | uwrStatus | uwrRxdatax | uwrTxdata | uwrIf | uwrIfs | uwrIfc | uwrIen | uwrUnk | uevReset =>
    exact ⟨fun _ => ⟨rfl, trivial⟩, fun _ => ⟨_, rfl⟩⟩

/-! ### Stops -/

/-- R115: a unit with no deadline, or one later than `now`, has no callback. -/
theorem execTevFire_of_not_due {t : Nat} {s : State} {T : Timer} (hT : s.timers[t]? = some T)
    (h : ∀ d, T.deadline = some d → s.now < d) : execTevFire t s = .fault .fireNotEnabled := by
  have hdue : ¬T.due s.now = true := by
    rw [Timer.due_iff]
    rintro ⟨d, hd, hle⟩
    exact absurd hle (h d hd).not_ge
  simp only [execTevFire, hT, if_neg hdue]

/-- R116: time neither goes back nor passes a pending deadline. -/
theorem execEnvAdvance_of_forbidden {time : Nat} {s : State}
    (h : time < s.now ∨ ∃ T ∈ s.timers, ∃ d, T.deadline = some d ∧ max d s.now < time) :
    execEnvAdvance time s = .fault .advanceNotEnabled := by
  refine if_neg ?_
  rintro ⟨hle, hall⟩
  obtain hback | ⟨T, hmem, d, hd, hpast⟩ := h
  · exact hback.not_ge hle
  · exact hpast.not_ge ((Timer.admits_iff _ _ _).mp (List.all_eq_true.mp hall T hmem) d hd)

/-- R159: while an item waits no byte arrives. -/
theorem execUevRx_of_waiting {b : Byte} {s : State} (hatt : s.config.transportAttached = true) (hwait : s.uart.hasData = true) :
    execUevRx b s = .fault .receiveNotEnabled := by
  simp only [execUevRx, transportEvent, hatt, hwait, if_true]

/-- R160: with no transport none of its three events happens. -/
theorem exec_transport_event_of_detached {i : Instr} {s : State} (hdet : s.config.transportAttached = false)
    (hi : i = .uevCanrx ∨ i = .uevBreak ∨ ∃ b, i = .uevRx b) : exec i s = .fault .transportNotAttached := by
  obtain rfl | rfl | ⟨b, rfl⟩ := hi <;>
    simp only [exec, execUevCanrx, execUevBreak, execUevRx, transportEvent, hdet, Bool.false_eq_true, if_false]

/-- Log entry 8: every operation of a Timer unit that does not exist is refused. -/
theorem exec_of_missing_unit {i : Instr} {t : Nat} {s : State} (hi : i.target = .timer t) (hT : s.timers[t]? = none) :
    exec i s = .refused .noSuchTimer := by
  cases i with
  | trdCtrl | trdCmd | trdIen | trdIf | trdIfs | trdIfc | trdTop | trdCnt | trdUnk =>
    cases hi
    show readTimer t _ s = _
    rw [readTimer, hT]
  | twrCtrl | twrCmd | twrIen | twrIf | twrIfs | twrIfc | twrTop | twrCnt | twrUnk | tevReset =>
    cases hi
    show updateTimer t _ s = _
    rw [updateTimer, hT]
  | tevFire =>
    cases hi
    show execTevFire t s = _
    rw [execTevFire, hT]
  | _ => cases hi

/-- Settles O7, one stop after the other. -/
theorem stepsThatDoNotExistStopByName : Obligations.StepsThatDoNotExistStopByName := by
  refine ⟨fun s t T => execTevFire_of_not_due, fun s time => execEnvAdvance_of_forbidden, fun s b => execUevRx_of_waiting,
    fun s i h => ?_⟩
  unfold Instr.unitOk at h
  split at h
  · next t hi => exact exec_of_missing_unit hi (List.getElem?_eq_none (not_lt.mp (of_decide_eq_false h)))
  · cases h
  · cases h

/-! ### No transport (R160) -/

/-- The same machine with a transport attached. -/
def State.attach (s : State) : State := { s with config := { s.config with transportAttached := true } }

/-- Two states in which everything but the parameters, the stream and the waiting requests is the same. -/
structure SameButTraffic (s₁ s₂ : State) : Prop where
  uart : s₁.uart = s₂.uart
  timers : s₁.timers = s₂.timers
  now : s₁.now = s₂.now
  response : s₁.response = s₂.response

/-- What completes without a transport completes with one, to the same effect but for the byte sent. -/
theorem exec_attach {i : Instr} {s s' : State} (hdet : s.config.transportAttached = false) (e : exec i s = .next s') :
    ∃ s'', exec i s.attach = .next s'' ∧ SameButTraffic s'' s' := by
  cases i with
  | trdCtrl | trdCmd | trdIen | trdIf | trdIfs | trdIfc | trdTop | trdCnt | trdUnk =>
    obtain ⟨T, hT, rfl⟩ := (readTimer_eq_next _ _ _ _).mp e
    exact ⟨_, readTimer_of _ _ s.attach T hT, rfl, rfl, rfl, rfl⟩
  | twrCtrl | twrCmd | twrIen | twrIf | twrIfs | twrIfc | twrTop | twrCnt | twrUnk | tevReset =>
    obtain ⟨T, hT, rfl⟩ := (updateTimer_eq_next _ _ _ _).mp e
    exact ⟨_, updateTimer_of _ _ s.attach T hT, rfl, rfl, rfl, rfl⟩
  | tevFire t =>
    obtain ⟨T, d, hT, hd, hle, rfl⟩ := (execTevFire_eq_next _ _ _).mp e
    exact ⟨_, (execTevFire_eq_next t s.attach _).mpr ⟨T, d, hT, hd, hle, rfl⟩, rfl, rfl, rfl, rfl⟩
  | envAdvance time =>
    obtain ⟨hle, hadmits, rfl⟩ := (execEnvAdvance_eq_next _ _ _).mp e
    exact ⟨_, (execEnvAdvance_eq_next time s.attach _).mpr ⟨hle, hadmits, rfl⟩, rfl, rfl, rfl, rfl⟩
  | uwrTxdata v =>
    cases e
    refine ⟨_, rfl, ?_, ?_, ?_, rfl⟩ <;> simp [State.attach]
  | urdCmd | urdStatus | urdRxdatax | urdTxdata | urdIf | urdIfs | urdIfc | urdIen | urdUnk
  | uwrCmd | uwrStatus | uwrRxdatax | uwrIf | uwrIfs | uwrIfc | uwrIen | uwrUnk | uevReset =>
    cases e
    exact ⟨_, rfl, rfl, rfl, rfl, rfl⟩
  | uevCanrx | uevRx | uevBreak =>
    cases (exec_transport_event_of_detached hdet (by simp)).symm.trans e

/-- Settles O57: the transport's events stop, the stream is kept, and attaching a transport changes nothing else. -/
theorem noTransportMeansNoTraffic : Obligations.NoTransportMeansNoTraffic := by
  intro s hdet
  have hstop {i : Instr} := exec_transport_event_of_detached (i := i) hdet
  refine ⟨fun b => hstop (.inr (.inr ⟨b, rfl⟩)), hstop (.inr (.inl rfl)), hstop (.inl rfl), fun i s' e => ?_⟩
  obtain ⟨-, htx⟩ := exec_streamKept e
  obtain ⟨s'', e', huart, htimers, hnow, hresponse⟩ := exec_attach hdet e
  exact ⟨htx hdet, s'', e', huart, htimers, hnow, hresponse⟩

end Sys2Proof.Machine
end

section
/-! PROOFS. The level of each interrupt line (10_state.md), and what each Timer read, write and event leaves, in the
spec's own arithmetic (40_timer_reads.md, 41_timer_writes.md, 42_timer_events.md, 70_reset_and_hazards.md). -/

namespace Sys2Proof.Machine

/-! ### The lines (R22, R31) -/

/-- Settles O12: both lines are the level of their flags and mask, which is the OR bit by bit. -/
theorem irqLineIsTheOrOfEnabledPendingBits : Obligations.IrqLineIsTheOrOfEnabledPendingBits :=
  ⟨fun T => lineLevel_iff T.iflag T.ien, fun U => lineLevel_iff U.iflag U.ien⟩

/-! ### Reads -/

/-- Settles O24: the three reads answer 0 and `TOP` its cell, from whatever unit an operation left. -/
theorem writeOnlyTimerRegistersReadZeroAndTopReadsBack : Obligations.WriteOnlyTimerRegistersReadZeroAndTopReadsBack := by
  intro t s T hT
  refine ⟨fun i hi => ?_, readTimer_of t _ s T hT, fun v s' e => readTimer_after_own Timer.top rfl hT e⟩
  simp only [List.mem_cons, List.not_mem_nil, or_false] at hi
  obtain rfl | rfl | rfl := hi <;> exact readTimer_of t _ s T hT

/-- R84: a `CNT` read answers the live count. -/
theorem execTrdCnt_of {t : Nat} {s : State} {T : Timer} (hT : s.timers[t]? = some T) :
    execTrdCnt t s = .next (s.respond (.word (T.liveCount s.config.vtu s.now))) :=
  readTimer_of t _ s T hT

/-- R98: a `CNT` write does not move the live count. -/
theorem execTrdCnt_after_twrCnt {t : Nat} {v : Word} {s s' : State} {T : Timer} (hT : s.timers[t]? = some T)
    (e : exec (.twrCnt t v) s = .next s') :
    execTrdCnt t s' = .next (s'.respond (.word (T.liveCount s.config.vtu s.now))) := by
  cases (updateTimer_of t (fun T => { T with cnt := v }) s T hT).symm.trans e
  exact execTrdCnt_of (T := { T with cnt := v }) (getElem?_set_unit _ t T _ hT)

/-- Settles O25: the live count is the truncated tick count, and a `CNT` write leaves it. -/
theorem countReadIsLiveVirtualTime : Obligations.CountReadIsLiveVirtualTime := by
  intro t s T hT
  exact ⟨⟨_, execTrdCnt_of hT, BitVec.toNat_ofNat _ _⟩, fun v s' e => execTrdCnt_after_twrCnt hT e⟩

/-- Every read but that of `RXDATAX` only answers, and the answer does not depend on the last one. -/
theorem exec_plain_read {i : Instr} {t o : Nat} {s : State} {T : Timer} (hs : s.Inv) (hT : s.timers[t]? = some T)
    (hi : i ∈ [.trdCtrl t, .trdCmd t, .trdIen t, .trdIf t, .trdIfs t, .trdIfc t, .trdTop t, .trdCnt t, .trdUnk t o,
      .urdCmd, .urdStatus, .urdTxdata, .urdIf, .urdIfs, .urdIfc, .urdIen, .urdUnk o]) :
    ∃ v, ∀ r, exec i { s with response := r } = .next { s with response := .word v } := by
  cases i with
  | trdCtrl u | trdCmd u | trdIen u | trdIf u | trdIfs u | trdIfc u | trdTop u | trdUnk u =>
    obtain rfl : u = t := by simp_all
    exact ⟨_, fun r => readTimer_of u _ { s with response := r } T hT⟩
  | trdCnt u =>
    obtain rfl : u = t := by simpa using hi
    exact ⟨T.liveCount s.config.vtu s.now, fun r => execTrdCnt_of (s := { s with response := r }) hT⟩
  | urdStatus => exact ⟨s.uart.status, fun r => rfl⟩
  | urdIf => exact ⟨s.uart.iflag, fun r => rfl⟩
  | urdIen => exact ⟨s.uart.ien, fun r => rfl⟩
  | urdCmd | urdTxdata | urdIfs | urdIfc | urdUnk =>
    refine ⟨0, fun r => ?_⟩
    show Host.Outcome.next { s with uart := s.uart.update, response := .word 0 } = _
    rw [Uart.update_of_derived _ hs.uart.derived_flag]
  | _ => simp at hi

/-- Settles O26: a plain read is `exec_plain_read` twice, the second time after its own answer. -/
theorem onlyRxdataxReadHasASideEffect : Obligations.OnlyRxdataxReadHasASideEffect := by
  intro s hs
  refine ⟨fun t o T hT i hi => ?plain, _, rfl, s.uart.release_hasData, s.uart.release_update_flag⟩
  obtain ⟨v, hread⟩ := exec_plain_read hs hT hi
  exact ⟨v, hread s.response, hread (.word v)⟩

/-! ### Writes -/

/-- A Timer transition replaces its unit by what `change` gives, and answers nothing. -/
theorem updateTimer_eq {t : Nat} {change : Timer → Timer} {s : State} {T T' : Timer} (hT : s.timers[t]? = some T)
    (h : change T = T') :
    updateTimer t change s = .next { s with timers := s.timers.set t T', response := .nothing } :=
  h ▸ updateTimer_of t change s T hT

/-- Settles O27, by the rate in the spec's arithmetic. -/
theorem controlWriteStoresAndSetsTheRate : Obligations.ControlWriteStoresAndSetsTheRate := by
  intro t v s T hT
  exact updateTimer_eq hT (by rw [rateOf_eq])

/-- Settles O28: the cell is replaced, and the line is the OR of the bits it then enables. -/
theorem enableAndTopWritesStoreTheValue : Obligations.EnableAndTopWritesStoreTheValue := by
  intro t v s T hT
  exact ⟨updateTimer_eq hT rfl, updateTimer_eq hT rfl, lineLevel_iff T.iflag v⟩

/-- Settles O30, by what start and stop leave. -/
theorem commandWriteStartsAndStops : Obligations.CommandWriteStartsAndStops := by
  intro t v s T hT
  exact updateTimer_eq hT (T.command_eq (startPulse v) (stopPulse v) s.config.vtu s.now)

/-- Settles O31: the flags are the OR, bit by bit. -/
theorem timerFlagSetWriteOrsTheFlags : Obligations.TimerFlagSetWriteOrsTheFlags := by
  intro t v s T hT
  refine ⟨setBits T.iflag v, updateTimer_eq hT rfl, fun k _ => getLsbD_setBits T.iflag v k, ?_⟩
  simp only [Timer.irq, lineLevel_iff, getLsbD_setBits, Bool.or_eq_true]

/-- R99: an `IFC` write clears the flags named and re-arms periodic mode. -/
theorem execTwrIfc_of {t : Nat} {s : State} {T : Timer} (hT : s.timers[t]? = some T) (v : Word) :
    execTwrIfc t v s = .next { s with
      timers := s.timers.set t { T with
        iflag := clearBits T.iflag v,
        deadline := if T.ctrl.getLsbD 4 then T.deadline else some (s.now + T.top.toNat * s.config.vtu / T.rate) },
      response := .nothing } :=
  updateTimer_eq hT (Timer.rearm_eq { T with iflag := clearBits T.iflag v } s.config.vtu s.now)

/-- Settles O32, by what the write leaves, bit by bit. -/
theorem timerFlagClearWriteClearsAndRearms : Obligations.TimerFlagClearWriteClearsAndRearms := by
  intro t v s T hT
  exact ⟨clearBits T.iflag v, execTwrIfc_of hT v, fun k _ => getLsbD_clearBits T.iflag v k⟩

/-- R94: in periodic mode the stored count is no part of the expiry. -/
theorem expiryTicks_cnt_of_periodic {T : Timer} (h : T.ctrl.getLsbD 4 = false) (v : Word) :
    expiryTicks { T with cnt := v } = expiryTicks T := by
  simp only [expiryTicks, h, Bool.false_eq_true, if_false]

/-- R94: in one-shot mode the stored count is the base of the expiry. -/
theorem expiryTicks_cnt_of_oneShot {T : Timer} (h : T.ctrl.getLsbD 4 = true) (v : Word) :
    expiryTicks { T with cnt := v } = if T.ctrl.toNat % 4 = 0 then 4294967295 - v.toNat else v.toNat := by
  simp only [expiryTicks, h, if_true]

/-- Settles O29: the write replaces one cell, which only the expiry of a one-shot start reads. -/
theorem countWriteStoresOnlyTheOneShotBase : Obligations.CountWriteStoresOnlyTheOneShotBase := by
  intro t v s T hT
  have hwrite : exec (.twrCnt t v) s =
      .next { s with timers := s.timers.set t { T with cnt := v }, response := .nothing } := updateTimer_eq hT rfl
  refine ⟨hwrite, fun s₁ e => ⟨fun s₂ e₂ => ?read, fun time s₂ e₂ => ?advance, fun hmode w s₂ s₃ e₂ e₃ => ?periodic,
    fun hmode time s₂ s₃ e₂ e₃ => ?oneShot⟩⟩
  case read =>
    cases (execTrdCnt_of hT).symm.trans e₂
    exact execTrdCnt_after_twrCnt hT e
  case advance =>
    obtain ⟨-, -, rfl⟩ := (execEnvAdvance_eq_next _ _ _).mp e₂
    rfl
  case periodic =>
    have hT₁ : s₁.timers[t]? = some { T with cnt := v } := exec_own_unit rfl hT e
    cases hwrite.symm.trans e
    rw [exec_own_unit rfl hT e₂, exec_own_unit rfl hT₁ e₃, Timer.after_twrCmd, Timer.after_twrCmd,
      expiryTicks_cnt_of_periodic hmode]
    rfl
  case oneShot =>
    have hT₁ : s₁.timers[t]? = some { T with cnt := v } := exec_own_unit rfl hT e
    have hconfig := exec_config e
    obtain ⟨-, -, rfl⟩ := (execEnvAdvance_eq_next _ _ _).mp e₂
    have hT₂ : ({ s₁ with now := time, response := .nothing } : State).timers[t]? = some { T with cnt := v } := hT₁
    rw [exec_own_unit rfl hT₂ e₃, Timer.after_twrCmd, expiryTicks_cnt_of_oneShot hmode, ← hconfig]
    rfl

/-! ### Events -/

/-- Settles O35, by what the callback leaves of a unit that is due. -/
theorem deadlineCallbackSetsTheModeFlag : Obligations.DeadlineCallbackSetsTheModeFlag := by
  intro t d s T hT hd hle
  refine (execTevFire_eq_next t s _).mpr ⟨T, d, hT, hd, hle, ?_⟩
  rw [Timer.expire_eq]
  rfl

/-- Settles O36, by the condition of the advance. -/
theorem advanceMovesOnlyVirtualTime : Obligations.AdvanceMovesOnlyVirtualTime := by
  intro time s hle hadmits
  exact (execEnvAdvance_eq_next time s _).mpr ⟨hle, hadmits, rfl⟩

/-- Settles O41: the cells are cleared, so nothing is enabled, and the rate is the clock where the clock is legal. -/
theorem timerResetClearsTheUnit : Obligations.TimerResetClearsTheUnit := by
  intro t s T hT
  refine ⟨updateTimer_eq hT (by rw [Timer.resetUnit, rateOf_zero]), fun s' e => ?_⟩
  rw [exec_own_unit rfl hT e]
  refine ⟨congrArg some (lineLevel_zero 0), fun hs => congrArg some ?_⟩
  show rateOf T.baseClock 0 = T.baseClock
  rw [rateOf_zero, max_eq_right (hs.timers T (List.mem_of_getElem? hT)).clock_pos]

/-! ### Repeating an operation -/

/-- A Timer transition whose change is idempotent leaves, repeated, the state it left. -/
theorem updateTimer_repeat {t : Nat} {change : Timer → Timer} {s s' : State} (e : updateTimer t change s = .next s')
    (h : ∀ T, change (change T) = change T) : updateTimer t change s' = .next s' := by
  obtain ⟨T, hT, rfl⟩ := (updateTimer_eq_next _ _ _ _).mp e
  have hT' : ((s.setTimer t (change T)).respond .nothing).timers[t]? = some (change T) := getElem?_set_unit _ t T _ hT
  rw [updateTimer_of t change _ _ hT', h T, State.setTimer_self _ t _ hT']
  rfl

/-- A UART transition whose change, updated, is idempotent leaves, repeated, the state it left. -/
theorem updateUart_repeat {change : Uart → Uart} {s s' : State} (e : updateUart change s = .next s')
    (h : ∀ U, (change (change U).update).update = (change U).update) : updateUart change s' = .next s' := by
  cases e
  rw [updateUart, State.respond_uart, State.setUart_uart, h]
  rfl

/-- The update step makes equal what differs in the derived flag alone. -/
theorem Uart.update_congr {U V : Uart} (hstatus : U.status = V.status) (hrxdatax : U.rxdatax = V.rxdatax) (hien : U.ien = V.ien)
    (hiflag : ∀ k, k ≠ 2 → U.iflag.getLsbD k = V.iflag.getLsbD k) : U.update = V.update := by
  have h : U.update.iflag = V.update.iflag := by
    apply BitVec.eq_of_getLsbD_eq
    intro k _
    rw [Uart.getLsbD_update, Uart.getLsbD_update, hstatus]
    split
    · rfl
    · next hk => exact hiflag k hk
  rw [Uart.mk.injEq]
  exact ⟨hstatus, hrxdatax, h, hien⟩

/-- Settles O34: each write stores what it stores again, and setting or clearing a bit twice is doing it once. -/
theorem storingWritesAreIdempotent : Obligations.StoringWritesAreIdempotent := by
  intro t v s s' i hi e
  simp only [List.mem_cons, List.not_mem_nil, or_false] at hi
  obtain rfl | rfl | rfl | rfl | rfl | rfl | rfl | rfl := hi
  case inl | inr.inl | inr.inr.inl | inr.inr.inr.inl => exact updateTimer_repeat e fun _ => rfl
  · exact updateTimer_repeat e fun T => by simp only [setBits, BitVec.or_assoc, BitVec.or_self]
  · refine updateUart_repeat (change := fun U => { U with ien := v }) e fun U =>
      Uart.update_congr rfl rfl rfl fun k hk => ?_
    exact Uart.getLsbD_update_of_ne _ hk
  · refine updateUart_repeat (change := fun U => { U with iflag := setBits U.iflag v }) e fun U =>
      Uart.update_congr rfl rfl rfl fun k hk => ?_
    simp only [getLsbD_setBits, Uart.getLsbD_update_of_ne _ hk, Bool.or_assoc, Bool.or_self]
  · refine updateUart_repeat (change := fun U => { U with iflag := clearBits U.iflag v }) e fun U =>
      Uart.update_congr rfl rfl rfl fun k hk => ?_
    simp only [getLsbD_clearBits, Uart.getLsbD_update_of_ne _ hk, Bool.and_assoc, Bool.and_self]

/-- Settles O42: what reset leaves does not depend on the cells it found. -/
theorem resetIsIdempotent : Obligations.ResetIsIdempotent := by
  refine ⟨fun t s s' e => updateTimer_repeat e fun _ => rfl, fun s s' e => updateUart_repeat e fun U => ?_⟩
  rw [Uart.zeroed_update, Uart.zeroed_update]

end Sys2Proof.Machine
end

section
/-! PROOFS. A Timer unit over several operations (42_timer_events.md sections 2 and 3, 95_test_vectors.md S2 and S4). -/

namespace Sys2Proof.Machine

/-! ### A stopped unit -/

/-- Timer unit `t` exists and is not armed. -/
def Idle (t : Nat) (s : State) : Prop := s.timers[t]?.map (fun T => T.deadline) = some none

/-- An operation that does not arm Timer unit `t`: no start of it that is not also a stop, and no `IFC` write to it. -/
def ArmsNot (t : Nat) (i : Instr) : Prop :=
  (∀ w : Word, i = .twrCmd t w → w.getLsbD 0 = false ∨ w.getLsbD 1 = true) ∧ ∀ w, i ≠ .twrIfc t w

theorem idle_iff {t : Nat} {s : State} : Idle t s ↔ ∃ T, s.timers[t]? = some T ∧ T.deadline = none :=
  Option.map_eq_some_iff

/-- R115: an idle unit has no callback. -/
theorem Idle.no_fire {t : Nat} {s : State} (h : Idle t s) (s' : State) : exec (.tevFire t) s ≠ .next s' := by
  intro e
  obtain ⟨T, hT, hnone⟩ := idle_iff.mp h
  obtain ⟨T', d, hT', hd, -⟩ := (execTevFire_eq_next _ _ _).mp e
  cases hT.symm.trans hT'
  simp [hnone] at hd

/-- R93, D11: a `CMD` write that does not start, or also stops, does not arm. -/
theorem Timer.after_twrCmd_idle {T : Timer} (h : T.deadline = none) {w : Word} (hw : w.getLsbD 0 = false ∨ w.getLsbD 1 = true)
    (vtu now t : Nat) : (T.after vtu now (.twrCmd t w)).deadline = none := by
  rw [Timer.after_twrCmd]
  obtain hstart | hstop := hw
  · simp only [hstart, h, Bool.false_eq_true, if_false, ite_self]
  · simp only [hstop, if_true]

/-- An idle unit stays idle under every operation that does not arm it: of the four that can change its deadline, the callback does
not happen and the other three leave none. -/
theorem Idle.exec {t : Nat} {i : Instr} {s s' : State} (h : Idle t s) (hi : ArmsNot t i) (e : exec i s = .next s') :
    Idle t s' := by
  obtain ⟨T, hT, hnone⟩ := idle_iff.mp h
  obtain ⟨hcmd, hifc⟩ := hi
  obtain ⟨T', hT'⟩ : ∃ T', s'.timers[t]? = some T' := ⟨_, by rw [exec_units e t, hT]; rfl⟩
  refine idle_iff.mpr ⟨T', hT', ?_⟩
  by_cases hsame : T'.deadline = T.deadline
  · exact hsame.trans hnone
  obtain ⟨v, rfl⟩ | ⟨v, rfl⟩ | rfl | rfl := (exec_framed e hT hT').deadline hsame
  · cases hT'.symm.trans (exec_own_unit rfl hT e)
    exact T.after_twrCmd_idle hnone (hcmd v rfl) _ _ t
  · exact absurd rfl (hifc v)
  · exact absurd e (h.no_fire s')
  · cases hT'.symm.trans (exec_own_unit rfl hT e)
    rfl

/-- Over a run of operations that do not arm it, an idle unit has no callback and stays idle. -/
theorem Idle.runAll {t : Nat} {l : List Instr} {s s' : State} (h : Idle t s) (hl : ∀ i ∈ l, ArmsNot t i)
    (e : runAll l s = .next s') : .tevFire t ∉ l ∧ Idle t s' := by
  induction l generalizing s with
  | nil => cases e; exact ⟨List.not_mem_nil, h⟩
  | cons i l ih =>
    obtain ⟨s₁, hi, hrest⟩ := (runAll_cons_eq_next i l s s').mp e
    obtain ⟨hnot, hidle⟩ := ih (h.exec (hl i (by simp)) hi) (fun j hj => hl j (by simp [hj])) hrest
    refine ⟨List.not_mem_cons_of_ne_of_not_mem ?_ hnot, hidle⟩
    rintro rfl
    exact h.no_fire s₁ hi

/-- Settles O37: a stop leaves the unit idle, and no admitted run arms it. -/
theorem stoppedTimerNeverFires : Obligations.StoppedTimerNeverFires := by
  intro t v s T hT hstop
  have hcmd := commandWriteStartsAndStops t v s T hT
  rw [if_pos hstop] at hcmd
  refine ⟨_, hcmd, fun hnone => ?unchanged, fun l s₂ hl e => ?_⟩
  case unchanged =>
    have hsame : ({ T with deadline := none } : Timer) = T := hnone ▸ rfl
    rw [hsame]
    have htimers := congrArg State.timers (State.setTimer_self s t T hT)
    exact htimers
  have hidle : Idle t { s with timers := s.timers.set t { T with deadline := none }, response := .nothing } :=
    idle_iff.mpr ⟨_, getElem?_set_unit _ t T _ hT, rfl⟩
  exact hidle.runAll hl e

/-! ### Start, expire, acknowledge -/

/-- Timer unit `t` is `T`, and no other unit is armed. -/
structure OthersIdle (t : Nat) (T : Timer) (s : State) : Prop where
  unit : s.timers[t]? = some T
  others : ∀ (u : Nat) (T' : Timer), s.timers[u]? = some T' → u ≠ t → T'.deadline = none

/-- R34: an operation of the unit leaves the others idle, and time where it was. -/
theorem OthersIdle.exec {t : Nat} {i : Instr} {s s' : State} {T : Timer} (h : OthersIdle t T s) (hi : i.target = .timer t)
    (e : exec i s = .next s') : OthersIdle t (T.after s.config.vtu s.now i) s' ∧ s'.now = s.now ∧ s'.config = s.config := by
  refine ⟨⟨exec_own_unit hi h.unit e, fun u T' hu hne => ?_⟩, ?_, exec_config e⟩
  · have hother : i.target ≠ .timer u := fun hiu => hne (Target.timer.inj (hiu.symm.trans hi))
    exact h.others u T' ((exec_other_unit hother e).symm.trans hu) hne
  · obtain ⟨T', r, rfl⟩ := exec_timer_frame hi e
    rfl

/-- R116: with no other unit armed only the deadline of the unit can hold time back. -/
theorem OthersIdle.advance {t time : Nat} {s : State} {T : Timer} (h : OthersIdle t T s) (hle : s.now ≤ time)
    (hadmits : ∀ d, T.deadline = some d → time ≤ max d s.now) :
    ∃ s', Machine.exec (.envAdvance time) s = .next s' ∧ OthersIdle t T s' ∧ s'.now = time ∧ s'.config = s.config := by
  refine ⟨_, advanceMovesOnlyVirtualTime time s hle fun T' hmem d hd => ?_, ⟨h.unit, h.others⟩, rfl, rfl⟩
  obtain ⟨u, hu⟩ := List.mem_iff_getElem?.mp hmem
  by_cases hut : u = t
  · subst hut
    cases hu.symm.trans h.unit
    exact hadmits d hd
  · rw [h.others u T' hu hut] at hd
    cases hd

/-- R114: what the callback leaves, in the spec's arithmetic. -/
theorem Timer.after_tevFire (vtu now t : Nat) (T : Timer) :
    T.after vtu now (.tevFire t) = { T with deadline := none, iflag := T.iflag ||| modeFlag T } :=
  T.expire_eq

/-- The first operation of a run completes. -/
theorem runAll_cons_of {i : Instr} {s s₁ : State} (e : exec i s = .next s₁) (l : List Instr) :
    runAll (i :: l) s = runAll l s₁ := by
  rw [runAll, e]

/-- Settles O38: the start sets the deadline, the advance reaches it, the callback consumes it, and an idle unit has no second. -/
theorem startedTimerExpiresOnce : Obligations.StartedTimerExpiresOnce := by
  intro t v s T hT hstart hstop hothers
  obtain ⟨s₁, hcmd⟩ : ∃ s₁, exec (.twrCmd t v) s = .next s₁ := ⟨_, commandWriteStartsAndStops t v s T hT⟩
  obtain ⟨h₁, hnow₁, -⟩ := OthersIdle.exec ⟨hT, hothers⟩ rfl hcmd
  simp only [Timer.after_twrCmd, hstart, hstop, Bool.false_eq_true, if_false, if_true] at h₁
  generalize hd : s.now + expiryTicks T * s.config.vtu / T.rate = d at h₁ ⊢
  have hle : s₁.now ≤ d := hnow₁ ▸ hd ▸ Nat.le_add_right _ _
  obtain ⟨s₂, hadvance, h₂, hnow₂, -⟩ := h₁.advance hle fun d' hd' => by cases hd'; exact le_max_left _ _
  obtain ⟨s₃, hfire⟩ : ∃ s₃, exec (.tevFire t) s₂ = .next s₃ :=
    ⟨_, deadlineCallbackSetsTheModeFlag t d s₂ _ h₂.unit rfl hnow₂.ge⟩
  obtain ⟨h₃, hnow₃, -⟩ := h₂.exec rfl hfire
  rw [Timer.after_tevFire] at h₃
  refine ⟨s₃, ?run, h₃.unit, hnow₃.trans hnow₂, execTevFire_of_not_due h₃.unit fun d' hd' => by cases hd'⟩
  rw [runAll_cons_of hcmd, runAll_cons_of hadvance, runAll_cons_of hfire]
  rfl

/-- Settles O39: after the callback no deadline holds time back, and the `IFC` write measures from its own time. -/
theorem acknowledgeMeasuresThePeriodFromItself : Obligations.AcknowledgeMeasuresThePeriodFromItself := by
  intro t d a v s T hT hd hdue hle hothers
  obtain ⟨s₁, hfire⟩ : ∃ s₁, exec (.tevFire t) s = .next s₁ := ⟨_, deadlineCallbackSetsTheModeFlag t d s T hT hd hdue⟩
  obtain ⟨h₁, hnow₁, hconfig₁⟩ := OthersIdle.exec ⟨hT, hothers⟩ rfl hfire
  rw [Timer.after_tevFire] at h₁
  obtain ⟨s₂, hadvance, h₂, hnow₂, hconfig₂⟩ := h₁.advance (hnow₁.trans_le hle) fun d' hd' => by cases hd'
  obtain ⟨s₃, hifc⟩ : ∃ s₃, exec (.twrIfc t v) s₂ = .next s₃ := ⟨_, execTwrIfc_of h₂.unit v⟩
  obtain ⟨h₃, hnow₃, -⟩ := h₂.exec rfl hifc
  rw [Timer.after_twrIfc, hnow₂, hconfig₂, hconfig₁] at h₃
  refine ⟨s₃, ?run, hnow₃.trans hnow₂, h₃.unit⟩
  rw [runAll_cons_of hfire, runAll_cons_of hadvance, runAll_cons_of hifc]
  rfl

/-- Settles O40: the deadline the write sets is `now`, which no time passes and at which the callback is due. -/
theorem zeroTopAcknowledgeFiresAtOnce : Obligations.ZeroTopAcknowledgeFiresAtOnce := by
  intro t v s T hT hmode htop
  obtain ⟨s₁, hifc⟩ : ∃ s₁, exec (.twrIfc t v) s = .next s₁ := ⟨_, execTwrIfc_of hT v⟩
  have hT₁ := exec_own_unit rfl hT hifc
  have hdeadline : s.now + T.top.toNat * s.config.vtu / T.rate = s.now := by simp [htop]
  simp only [Timer.after_twrIfc, hmode, hdeadline, Bool.false_eq_true, if_false] at hT₁
  have hnow₁ : s₁.now = s.now := by
    obtain ⟨T', r, rfl⟩ := exec_timer_frame rfl hifc
    rfl
  refine ⟨s₁, hifc, fun time hlt => ?blocked, ?fires⟩
  case blocked =>
    refine execEnvAdvance_of_forbidden (.inr ⟨_, List.mem_of_getElem? hT₁, s.now, rfl, ?_⟩)
    rwa [hnow₁, max_self]
  case fires =>
    have hfire := deadlineCallbackSetsTheModeFlag t s.now s₁ _ hT₁ rfl hnow₁.ge
    refine ⟨_, hfire, ?_⟩
    rw [exec_own_unit rfl hT₁ hfire, Timer.after_tevFire]
    rfl

end Sys2Proof.Machine
end

section
/-! PROOFS. What each UART read, write and event leaves, in the spec's own arithmetic (43_uart_reads.md, 44_uart_writes.md,
45_uart_events.md). -/

namespace Sys2Proof.Machine

/-! ### Reads -/

/-- Settles O43: the read leaves the slot released, and releasing it again changes nothing. -/
theorem receiveReadReleasesTheSlot : Obligations.ReceiveReadReleasesTheSlot := by
  have hread (s : State) : exec .urdRxdatax s = .next { s with
      uart := { s.uart with status := clearBits s.uart.status rxDataValid, iflag := clearBits s.uart.iflag rxDataValidFlag },
      response := .word s.uart.rxdatax } := by
    rw [← Uart.release_update]
    rfl
  have hclear (f m : Word) : clearBits (clearBits f m) m = clearBits f m := by
    simp only [clearBits, BitVec.and_assoc, BitVec.and_self]
  refine fun s => ⟨hread s, fun s' e => ?_⟩
  cases (hread s).symm.trans e
  rw [hread]
  simp only [hclear]

/-- Settles O45: the invariant leaves `STATUS` two values. -/
theorem statusReadsReadyWithOrWithoutData : Obligations.StatusReadsReadyWithOrWithoutData := by
  have hread (s : State) : exec .urdStatus s = .next { s with response := .word s.uart.status } := rfl
  refine ⟨hread, fun s hs => ?_⟩
  rw [hread]
  exact hs.uart.status_legal.imp (fun h => by rw [h]) (fun h => by rw [h])

/-- R130: an unmatched read is the update step, and answers 0. -/
theorem readUartUnmatched_eq (s : State) : readUartUnmatched s =
    .next { s with uart := { s.uart with iflag := netFlags s.uart.status s.uart.iflag }, response := .word 0 } := by
  rw [readUartUnmatched, Uart.update_eq]
  rfl

/-- Where R30 holds an unmatched read only answers. -/
theorem readUartUnmatched_of_derived {s : State} (h : s.uart.iflag.getLsbD 2 = s.uart.status.getLsbD 7) :
    readUartUnmatched s = .next { s with response := .word 0 } := by
  rw [readUartUnmatched, Uart.update_of_derived _ h]
  rfl

/-- Settles O46: the five reads are the unmatched read. -/
theorem unmatchedUartReadsReturnZero : Obligations.UnmatchedUartReadsReturnZero := by
  intro o s i hi
  have hexec : exec i s = readUartUnmatched s := by
    simp only [List.mem_cons, List.not_mem_nil, or_false] at hi
    obtain rfl | rfl | rfl | rfl | rfl := hi <;> rfl
  rw [hexec]
  exact ⟨readUartUnmatched_eq s, fun hs => readUartUnmatched_of_derived hs.uart.derived_flag⟩

/-! ### Writes -/

/-- Settles O48: the mask is stored; where the flag agrees already, updating it changes nothing more. -/
theorem uartEnableWriteStoresTheMask : Obligations.UartEnableWriteStoresTheMask := by
  intro v s
  refine ⟨updateUart_eq (fun U => { U with ien := v }) s, fun hs => ?_⟩
  show Host.Outcome.next { s with uart := ({ s.uart with ien := v } : Uart).update, response := .nothing } = _
  rw [Uart.update_of_derived]
  exact hs.uart.derived_flag

/-- Settles O49, by the net effect of the update step. -/
theorem uartFlagSetWriteKeepsTheReceiveFlag : Obligations.UartFlagSetWriteKeepsTheReceiveFlag := by
  intro v s
  exact updateUart_eq (fun U => { U with iflag := setBits U.iflag v }) s

/-- Settles O51: the byte joins the stream before an update step that finds the registers as they were. -/
theorem transmitWriteSendsTheLowByte : Obligations.TransmitWriteSendsTheLowByte := by
  intro v s
  refine ⟨?_, fun hs s' e => ?_⟩
  · rw [← txByte_eq]
    show updateUart (fun U => U) (s.send (txByte v)) = _
    rw [State.send_eq, updateUart_eq]
  · rw [exec_uart_after e]
    exact Uart.update_of_derived _ hs.uart.derived_flag

/-- Settles O52: the Timer write puts the unit back, and the four UART writes are the update step alone. -/
theorem ignoredWritesChangeNothing : Obligations.IgnoredWritesChangeNothing := by
  refine ⟨fun t v s T => updateTimer_id_of t s T, fun v s i hi => ?_⟩
  have hexec : exec i s = updateUart (fun U => U) s := by
    simp only [List.mem_cons, List.not_mem_nil, or_false] at hi
    obtain rfl | rfl | rfl | rfl := hi <;> rfl
  rw [hexec]
  exact ⟨updateUart_eq (fun U => U) s, fun hs => updateUart_id_of_derived s hs.uart.derived_flag⟩

/-! ### Events -/

/-- R157, R158: what an arrival leaves of the machine. -/
theorem arrival_eq (s : State) (item : Word) : (s.setUart (s.uart.receive item).update).respond .nothing = { s with
    uart := { s.uart with rxdatax := item, status := s.uart.status ||| 0x00000080, iflag := s.uart.iflag ||| 0x00000004 },
    response := .nothing } := by
  rw [Uart.receive_update]
  rfl

/-- Settles O55: the byte arrives zero-extended. -/
theorem receivedByteFillsTheSlot : Obligations.ReceivedByteFillsTheSlot := by
  intro b s hatt hfree
  refine (execUevRx_eq_next b s _).mpr ⟨hatt, hfree, ?_⟩
  rw [arrival_eq, zext32_eq]

/-- Settles O56: the framing-error mark arrives, with the sentinel byte zero-extended. -/
theorem breakStoresTheFramingError : Obligations.BreakStoresTheFramingError := by
  intro s hatt
  have hbreak : exec .uevBreak s = .next { s with
      uart := { s.uart with rxdatax := 0x00008000 ||| BitVec.ofNat 32 s.config.breakByte.toNat,
                            status := s.uart.status ||| 0x00000080, iflag := s.uart.iflag ||| 0x00000004 },
      response := .nothing } := by
    refine (execUevBreak_eq_next s _).mpr ⟨hatt, ?_⟩
    rw [arrival_eq, zext32_eq]
    rfl
  refine ⟨hbreak, fun hsentinel s' e => ?_⟩
  cases hbreak.symm.trans e
  rw [hsentinel]
  rfl

end Sys2Proof.Machine
end
